-- ==== Sys2Proof/Word.lean ====
section
/-! DEFINITION. The bit-vector widths of the block: buffer entries and identifier bytes (R11, R17),
and the transmitted code (R16). -/

namespace Sys2Proof

/-- One buffer entry, or one byte of a TransponderId (R11, R17). -/
abbrev Byte := BitVec 8

/-- The 6-bit value that is transmitted (R9, R16). -/
abbrev Code := BitVec 6

end Sys2Proof
end

