-- ==== Sys2Proof/Syntax.lean ====
section
/-! DEFINITION. The operations of the block (one constructor per row of the opcode table), their operands,
the port signals that carry them (R60, R63, R64) and the moves the environment can make (R66, R133). -/

namespace Sys2Proof

/-- A channel handle: opaque to the core, compared and passed through only (R5, R15, D25). A handle is a tag
that names a value of the type `Chan`; which tags name one is the parameter `ChanType`. DESIGN CHOICE (log 3). -/
structure Chan where
  handle : Nat
  deriving DecidableEq, Repr, Inhabited

/-- The parameter `Chan` of R5, a type with decidable equality, up to renaming its values: how many of them
there are. The tags `0 .. last` name them, or every tag does (log 3). -/
inductive ChanType where
  | finite (last : Nat)
  | countable
  deriving DecidableEq, Repr, Inhabited

/-- Whether a tag names a value of the type. -/
def ChanType.has : ChanType → Chan → Bool
  | .finite last, ch => decide (ch.handle ≤ last)
  | .countable, _ => true

/-- The value of the type that a number selects. -/
def ChanType.select : ChanType → Nat → Chan
  | .finite last, n => ⟨n % (last + 1)⟩
  | .countable, n => ⟨n⟩

/-- A TransponderId of `ID_LEN` bytes (R17). Byte `5` exists in every value of the type, because
`ID_LEN` is at least 6 (R5, R80); `rest` holds bytes `6 .. ID_LEN-1`. -/
structure TransponderId where
  b0 : Byte
  b1 : Byte
  b2 : Byte
  b3 : Byte
  b4 : Byte
  b5 : Byte
  rest : List Byte
  deriving DecidableEq, Repr

/-- The bytes of a TransponderId, byte 0 first (R8). -/
def TransponderId.bytes (id : TransponderId) : List Byte :=
  [id.b0, id.b1, id.b2, id.b3, id.b4, id.b5] ++ id.rest

/-- The operations of the block, one constructor per row of `opcode_table.json`. -/
inductive Instr where
  /-- ISREADY: read the flag (R98). -/
  | isready
  /-- UPDATE: stage a new frame (R92). -/
  | update (id : TransponderId)
  /-- TRANSMIT: start playback of the staged buffer (R95). -/
  | transmit
  /-- The reserved opcode `11` (R62). -/
  | reservedOp3
  /-- INIT: supply the channel (R90). -/
  | init (ch : Chan)
  /-- RESET: the joint reset of core and collaborator (R145, R146). -/
  | reset
  /-- ENCODE: the encoder, run inside UPDATE (R70, R71). -/
  | encode (id : TransponderId)
  /-- START_PLAYBACK: the outbound call, made inside TRANSMIT (R111, R112). -/
  | startPlayback (length : Nat) (ch : Chan)
  /-- PLAY_STEP: the collaborator plays one entry (R113). -/
  | playStep
  /-- COMPLETE: the completion handler (R137). -/
  | complete
  deriving DecidableEq, Repr

/-- What travels over the block's ports: the encodings of R60, R63 and R64. -/
inductive Signal where
  /-- A request word of `8*ID_LEN + 2` bits (R60). -/
  | request (word : Nat)
  /-- `cfg_valid = 1` with `cfg_chan` (R63). -/
  | cfgValid (ch : Chan)
  /-- `rst = 1` (R64). -/
  | rst
  /-- `play_start = 1` with `play_len` and `play_chan` (R64). -/
  | playStart (length : Nat) (ch : Chan)
  /-- `play_done = 1` (R64). -/
  | playDone
  deriving DecidableEq, Repr

/-- The two execution contexts that can present a request word (R133). -/
inductive Context where
  /-- The single logical flow of control. -/
  | caller
  /-- The completion-notification context, which may not be held. -/
  | completion
  deriving DecidableEq, Repr

/-- The two requests that can be held, with their operands (R19). -/
inductive Request where
  | update (id : TransponderId)
  | transmit
  deriving DecidableEq, Repr

/-- The operation a held request stands for. -/
def Request.instr : Request → Instr
  | .update id => .update id
  | .transmit => .transmit

/-- One move of one agent (R66, R131, R135): what the schedule lists. `resume` is the moment at which
the held operation takes its own step (R96). -/
inductive Move where
  | request (ctx : Context) (word : Nat)
  | config (ch : Chan)
  | reset
  | playStep
  | complete
  | resume
  deriving DecidableEq, Repr

end Sys2Proof
end

