-- ==== Sys2Proof/Config.lean ====
section
/-! DEFINITION. The implementation parameters (R5), their well-formedness (R6), the derived widths (R7),
the open parameters of the reset state, and the free values. -/

namespace Sys2Proof

/-- The parameters as an implementation presents them, not yet checked (R5). -/
structure Params where
  /-- `P0`: entries in a run that conveys 0, and in each half of the header. -/
  p0 : Nat
  /-- `P1`: entries in a run that conveys 1. -/
  p1 : Nat
  /-- `FRAME_LEN`: entries in a frame. -/
  frameLen : Nat
  /-- `CAP`: entries in the PulseBuffer. -/
  cap : Nat
  /-- `ON_MARK`: the byte of an on entry. -/
  onMark : Byte
  /-- `ID_LEN`: bytes of a TransponderId. -/
  idLen : Nat
  /-- `TIME_UNIT`: duration of one time unit, in nanoseconds; no rule of the machine reads it (D20). -/
  timeUnit : Nat
  /-- `Chan`: the type of a channel handle (log 3). -/
  chanType : ChanType
  deriving DecidableEq, Repr

/-- `WORST`: the longest header, data and parity together (R6, R82). -/
def Params.worst (p : Params) : Nat := 3 * p.p0 + 6 * p.p1

/-- R6: a configuration is well formed. -/
abbrev Params.WellFormed (p : Params) : Prop :=
  1 ≤ p.p0 ∧ p.p0 < p.p1 ∧ p.onMark ≠ 0 ∧ 6 ≤ p.idLen ∧ p.worst < p.frameLen ∧ p.frameLen ≤ p.cap

/-- A checked configuration. R83: the check is made once, when the configuration is built, and is not a
run-time check; an ill-formed configuration has no machine at all (R6). -/
structure Config extends Params where
  valid : toParams.WellFormed
  deriving DecidableEq, Repr

/-- Build a configuration, or none where R6 refuses it. -/
def Params.build (p : Params) : Option Config :=
  if h : p.WellFormed then some ⟨p, h⟩ else none

/-- `CURSOR_W = ceil(log2(CAP + 1))` (R7). -/
def Config.cursorW (c : Config) : Nat := Nat.log2 c.cap + 1

/-- Bits of a request word: `8*ID_LEN + 2` (R60). -/
def Config.requestBits (c : Config) : Nat := 8 * c.idLen + 2

/-- Duration of one frame (R134, R165). -/
def Config.frameDuration (c : Config) : Nat := c.frameLen * c.timeUnit

/-- Identifier bytes of the port whose request words opcode_table.json lists: 50 bits (R60). -/
def tableIdLen : Nat := 6

/-- The same configuration with the port of the opcode table (log 2). -/
def Config.withTablePort (c : Config) : Config :=
  ⟨{ c.toParams with idLen := tableIdLen },
    ⟨c.valid.1, c.valid.2.1, c.valid.2.2.1, Nat.le_refl 6, c.valid.2.2.2.2⟩⟩

/-! The parameters the reset state runs with are open: the spec chooses no value for them (R5, D2 to D4,
D20), so each is an uninterpreted constant. They measure the slack in each inequality of R6, so that every
well-formed configuration is some choice of them and every choice is well formed (log 2). -/

opaque Config.openP0 : Nat
opaque Config.openP1 : Nat
opaque Config.openGap : Nat
opaque Config.openTail : Nat
opaque Config.openMark : Nat
opaque Config.openIdTail : Nat
opaque Config.openTimeUnit : Nat
opaque Config.openChanType : ChanType

/-! Free values (U12): what `chan` holds after RESET, and what `plen`, `ppos` and `pchan` hold while the
collaborator is Stopped. Each is drawn by a counter of State (log 5); the bounds of R18 are applied where
the draw is used, and `ChanType.select` turns a number into a handle. -/

opaque Config.freeChan : Nat → Nat
opaque Config.freePlen : Nat → Nat
opaque Config.freePpos : Nat → Nat
opaque Config.freePchan : Nat → Nat

end Sys2Proof
end

