-- ==== Sys2Proof/WellFormed.lean ====
section
/-! DEFINITION. Which operations are well formed in a configuration: the operand has the size the
encodings of R60 and R64 and the preconditions of R111 give it, and a handle is one of the type `Chan` (R5). -/

namespace Sys2Proof

/-- The identifier has `ID_LEN` bytes (R17, R60). -/
def TransponderId.wellFormed (c : Config) (id : TransponderId) : Bool := decide (id.rest.length + 6 = c.idLen)

/-- An operation's operands have the sizes the configuration gives them (R60, R111). -/
def Instr.wellFormed (c : Config) : Instr → Bool
  | .isready => true
  | .update id => id.wellFormed c
  | .transmit => true
  | .reservedOp3 => true
  | .init ch => c.chanType.has ch
  | .reset => true
  | .encode id => id.wellFormed c
  | .startPlayback length ch => decide (length ≤ c.cap) && c.chanType.has ch
  | .playStep => true
  | .complete => true

end Sys2Proof
end

