-- ==== Sys2Proof/Decode.lean ====
section
/-! DEFINITION. The decoder of the port signals (R60 to R65), total and rejecting by name, and after it the
encoder, written from the same rules. -/

namespace Sys2Proof

/-- Why a signal is no operation. -/
inductive DecodeReject where
  /-- The request word has a bit above the `8*ID_LEN + 2` of the port (R60, R65). -/
  | requestTooWide
  /-- The port carries fewer than the six identifier bytes of R5; no well-formed configuration has one. -/
  | identifierTooShort
  /-- `play_len` has a bit above its `CURSOR_W` (R64). -/
  | lengthTooWide
  /-- `cfg_chan` or `play_chan` holds no value of the type `Chan` (R5, R63, R64). -/
  | notAHandle
  deriving DecidableEq, Repr

/-- `n` bytes of a word, least significant byte first: byte `i` is bits `8*i+7 .. 8*i` (R60). -/
def unpackBytes : Nat → Nat → List Byte
  | 0, _ => []
  | n + 1, w => BitVec.ofNat 8 w :: unpackBytes n (w / 256)

/-- A TransponderId from its bytes, byte 0 first. -/
def idOfBytes : List Byte → Option TransponderId
  | b0 :: b1 :: b2 :: b3 :: b4 :: b5 :: rest => some ⟨b0, b1, b2, b3, b4, b5, rest⟩
  | _ => none

/-- The operation of a request word on a port of `idLen` identifier bytes: `op` is the top two bits
(R60, R61), `11` is reserved (R62). The identifier bits of the other three are ignored (R60). -/
def decodeRequest (idLen w : Nat) : Except DecodeReject Instr :=
  if w < 2 ^ (8 * idLen + 2) then
    match w / 2 ^ (8 * idLen) with
    | 0 => .ok .isready
    | 1 =>
      match idOfBytes (unpackBytes idLen w) with
      | some id => .ok (.update id)
      | none => .error .identifierTooShort
    | 2 => .ok .transmit
    | _ => .ok .reservedOp3
  else .error .requestTooWide

/-- The operation a port signal carries (R60 to R65). -/
def decode (c : Config) : Signal → Except DecodeReject Instr
  | .request w => decodeRequest c.idLen w
  | .cfgValid ch => if c.chanType.has ch then .ok (.init ch) else .error .notAHandle
  | .rst => .ok .reset
  | .playStart length ch =>
    if 2 ^ c.cursorW ≤ length then .error .lengthTooWide
    else if c.chanType.has ch then .ok (.startPlayback length ch)
    else .error .notAHandle
  | .playDone => .ok .complete

/-- What the decoder reads from a request word numbered as the opcode table numbers it: 50 bits, a port of
six identifier bytes (R60). The words are handed over as whole bytes, so `nbits` is 56 and bits 55 to 50 are 0. -/
def decodeTableWord (nbits w : Nat) : Option Instr :=
  match decodeRequest tableIdLen (w % 2 ^ nbits) with
  | .ok i => some i
  | .error _ => none

/-- The word whose byte `i` is the `i`-th of the list (R60). -/
def packBytes : List Byte → Nat
  | [] => 0
  | b :: bs => b.toNat + 256 * packBytes bs

/-- A request word from `op` and the identifier field (R60). -/
def requestWord (idLen op idField : Nat) : Nat := op * 2 ^ (8 * idLen) + idField

/-- The signal that carries an operation; ENCODE and PLAY_STEP are internal and have none. -/
def encode (c : Config) : Instr → Option Signal
  | .isready => some (.request (requestWord c.idLen 0 0))
  | .update id => some (.request (requestWord c.idLen 1 (packBytes id.bytes)))
  | .transmit => some (.request (requestWord c.idLen 2 0))
  | .reservedOp3 => some (.request (requestWord c.idLen 3 0))
  | .init ch => some (.cfgValid ch)
  | .reset => some .rst
  | .encode _ => none
  | .startPlayback length ch => some (.playStart length ch)
  | .playStep => none
  | .complete => some .playDone

end Sys2Proof
end

