-- ==== Sys2Proof/Machine/Device.lean ====
section
/-! DEFINITION. The configuration the reset state runs with: open in every parameter (log 2). -/

namespace Sys2Proof

/-- The parameters of the reset state: each is open (R5: a reference value is not baked in). DESIGN CHOICE
(log 2). -/
def Params.device : Params where
  p0 := Config.openP0 + 1
  p1 := Config.openP0 + 1 + (Config.openP1 + 1)
  frameLen := 3 * (Config.openP0 + 1) + 6 * (Config.openP0 + 1 + (Config.openP1 + 1)) + (Config.openGap + 1)
  cap := 3 * (Config.openP0 + 1) + 6 * (Config.openP0 + 1 + (Config.openP1 + 1)) + (Config.openGap + 1)
    + Config.openTail
  onMark := BitVec.ofNat 8 (Config.openMark % 255 + 1)
  idLen := 6 + Config.openIdTail
  timeUnit := Config.openTimeUnit
  chanType := Config.openChanType

theorem Params.device_wellFormed : Params.device.WellFormed := by
  refine ⟨?_, ?_, ?_, ?_, ?_, ?_⟩
  · simp [Params.device]
  · simp only [Params.device]; omega
  · intro h
    have := congrArg BitVec.toNat h
    have zero : (0 : Byte).toNat = 0 := rfl
    simp only [Params.device, BitVec.toNat_ofNat] at this
    omega
  · simp only [Params.device]; omega
  · simp only [Params.worst, Params.device]; omega
  · simp only [Params.device]; omega

/-- The configuration of the reset state. -/
def Config.device : Config := ⟨Params.device, Params.device_wellFormed⟩

end Sys2Proof
end

