-- ==== Sys2Proof/Machine/State.lean ====
section
/-! DEFINITION. The state of the system (R10 to R19, R27), the reasons a step can stop (R142), and the state
after reset (R26). -/

namespace Sys2Proof.Machine

/-- The PulseBuffer as (index, entry) pairs, indices rising, no entry 0; an unlisted index reads 0, the
reset content (R11: "zero-filled"). -/
abbrev Memory := List Host.Cell

/-- The canonical form of a buffer. -/
abbrev Memory.wf (m : Memory) : Prop :=
  m.Pairwise (fun p q => p.1 < q.1) ∧ ∀ p ∈ m, p.2 ≠ 0

/-- TransmitState (R12). -/
inductive TransmitState where
  | idle
  | busy
  deriving DecidableEq, Repr

/-- Whether the collaborator has a playback that has not yet signalled completion (R18). -/
inductive PlayState where
  | stopped
  | playing
  deriving DecidableEq, Repr

/-- Output level of a slot (R8, R31). -/
inductive Level where
  | on
  | off
  deriving DecidableEq, Repr

/-- The events the history keeps (R27). -/
inductive Event where
  | startPlayback (length : Nat) (ch : Chan)
  | complete
  deriving DecidableEq, Repr

/-- The state of core, collaborator and requester (R10), with the observation aids of R27 and, last, the
model's own fields. -/
structure State where
  /-- The parameters (R5). Not state of the hardware (R10): no step writes it (log 1). -/
  cfg : Config
  /-- PulseBuffer (R11). -/
  buf : Memory
  /-- TransmitState (R12). -/
  tstate : TransmitState
  /-- Write cursor (R13). -/
  cursor : Nat
  /-- Channel handle (R15). -/
  chan : Chan
  /-- Whether a handle has been supplied (R15). -/
  chanValid : Bool
  /-- Collaborator: Stopped or Playing (R18). -/
  pstate : PlayState
  /-- Collaborator: length of the playback in flight (R18). -/
  plen : Nat
  /-- Collaborator: entries already played (R18). -/
  ppos : Nat
  /-- Collaborator: channel of the playback in flight (R18). -/
  pchan : Chan
  /-- Output level in the current slot (R18). -/
  tx : Level
  /-- The held request (R19). -/
  pending : Option Request
  /-- Output history (R27). -/
  trace : List (Chan × Level)
  /-- Playbacks started and completed (R27). -/
  events : List Event
  /-- Response bit of the latest ISREADY (R60, R98; log 10). -/
  rsp : Option Bool
  /-- How many free values have been drawn (log 5). -/
  draws : Nat
  /-- The moves the environment makes from here on, the next one first (log 7). -/
  script : List Move
  deriving DecidableEq, Repr

/-- Why the machine stops with a fault (R142). Both are safe: the run ends where the spec gives no
behaviour, and no claim can be drawn from it. -/
inductive Fault where
  /-- A write to `buf` while Busy (R39, R128). Raised by `memWrite`; reached by an ENCODE outside UPDATE.
  Safe. -/
  | bufferWriteWhileBusy
  /-- An index outside `0 .. CAP-1` (R33). Raised by `memWrite` and `memRead`. Safe. -/
  | bufferIndexOutOfRange
  deriving DecidableEq, Repr

/-- Why the model gives a move no meaning. Every one is safe: the state is left as it was and nothing can be
proved of what the hardware would do. -/
inductive Refusal where
  /-- Raised by an arm of `exec` whose operation has no meaning yet; no arm does. Safe. -/
  | notModelled (mnemonic : String)
  /-- TRANSMIT while no channel has been supplied (R95, R97 (c), R127). Raised by `execTransmit`. Safe. -/
  | noChannel
  /-- Opcode `11` (R62). Raised by `execReservedOp3`. Safe. -/
  | reservedOpcode
  /-- A second INIT (R90). Raised by `execInit`. Safe. -/
  | alreadyInitialised
  /-- A configuration R6 does not admit; raised by `boot`, before there is a machine. Safe. -/
  | illFormedConfiguration
  /-- The hold `WaitIdle` of R142: the held operation is scheduled while Busy and has no enabled step
  (R96). Raised by `fetch`. Safe. -/
  | waitIdle
  /-- The held operation is scheduled and none is held. Raised by `fetch`. Safe. -/
  | nothingHeld
  /-- UPDATE or TRANSMIT while another one is outstanding: no move of the single requester (R19, R162).
  Raised by `holdUntilIdle`. Safe. -/
  | requestOutstanding
  /-- UPDATE or TRANSMIT from the completion context, which may not be held (R133, R156, R160 (3)).
  Raised by `fetch`. Safe. -/
  | blockingInCompletionContext
  /-- START_PLAYBACK outside its preconditions (R111). Raised by `execStartPlayback`. Safe. -/
  | startPlaybackNotEnabled
  /-- PLAY_STEP with no entry left to play (R113, R114). Raised by `execPlayStep`. Safe. -/
  | playStepNotEnabled
  /-- COMPLETE as a move of the collaborator that is not due (R115), raised by `fetch`; and as an operation while
  Busy and not due, raised by `execComplete` (R139). Safe. -/
  | completeNotEnabled
  /-- A signal the decoder rejects (R60, R64). Raised by `fetch`. Safe. -/
  | undecodable (why : DecodeReject)
  deriving DecidableEq, Repr

/-- What one operation answers. -/
abbrev Answer := Host.Outcome State Fault Refusal

/-- The state after process start in a configuration (R26). `chan`, `plen`, `ppos` and `pchan` have no reset
value in the spec; the values named here are a DESIGN CHOICE (log 4). -/
def State.resetWith (c : Config) : State where
  cfg := c
  buf := []
  tstate := .idle
  cursor := 0
  chan := ⟨0⟩
  chanValid := false
  pstate := .stopped
  plen := 0
  ppos := 0
  pchan := ⟨0⟩
  tx := .off
  pending := none
  trace := []
  events := []
  rsp := none
  draws := 0
  script := []

/-- The state after reset (R26), in the open configuration. -/
def State.reset : State := State.resetWith Config.device

end Sys2Proof.Machine
end

