-- ==== Sys2Proof/Machine/Ops.lean ====
section
/-! DEFINITION. The named operations over the PulseBuffer and the registers. Every write of a register goes
through one of them. The block has no exception mechanism (R125): its one asynchronous event is the
completion, and `State.takeCompletion` is the whole of its entry (R130, R137); there is no return (R138). -/

namespace Sys2Proof.Machine

/-- The entry at an index; an unlisted index holds 0 (R11). -/
def Memory.read : Memory → Nat → Byte
  | [], _ => 0
  | (b, w) :: m, a => if a = b then w else Memory.read m a

/-- The buffer with one entry replaced, in canonical form. -/
def Memory.write : Memory → Nat → Byte → Memory
  | [], a, v => if v = 0 then [] else [(a, v)]
  | (b, w) :: m, a, v =>
    if a < b then (if v = 0 then (b, w) :: m else (a, v) :: (b, w) :: m)
    else if a = b then (if v = 0 then m else (a, v) :: m)
    else (b, w) :: Memory.write m a v

/-- The level an entry plays as: ON iff it is not 0 (R8, R31). -/
def Level.ofByte (e : Byte) : Level := if e = 0 then .off else .on

/-- Store one entry; the raw register update under `memWrite`. -/
def State.storeByte (s : State) (addr : Nat) (v : Byte) : State :=
  { s with buf := Memory.write s.buf addr v }

/-- `MemWrite(addr, 1, v)`: a write while Busy and an index outside the buffer are the two faults
(R33, R39, R128). Where both hold the first is named, a DESIGN CHOICE (log 14). -/
def memWrite (s : State) (addr : Nat) (v : Byte) : Except Fault State :=
  match s.tstate with
  | .busy => .error .bufferWriteWhileBusy
  | .idle => if addr < s.cfg.cap then .ok (s.storeByte addr v) else .error .bufferIndexOutOfRange

/-- `MemRead(addr, 1)`: no side effect (R36); an index outside the buffer is a fault (R33). -/
def memRead (s : State) (addr : Nat) : Except Fault Byte :=
  if addr < s.cfg.cap then .ok (Memory.read s.buf addr) else .error .bufferIndexOutOfRange

/-- `cursor <- n` (R13). -/
def State.setCursor (s : State) (n : Nat) : State := { s with cursor := n }

/-- Keep a request that is held (R19, R96). -/
def State.hold (s : State) (r : Request) : State := { s with pending := some r }

/-- Drive the response bit (R60). -/
def State.answer (s : State) (b : Bool) : State := { s with rsp := some b }

/-- Take the channel handle (R90). -/
def State.supplyChannel (s : State) (ch : Chan) : State := { s with chan := ch, chanValid := true }

/-- `tstate <- Busy` (R95). -/
def State.setBusy (s : State) : State := { s with tstate := .busy }

/-- START_PLAYBACK's four writes, and its entry in the history (R112, R27). -/
def State.startPlayback (s : State) (length : Nat) (ch : Chan) : State :=
  { s with
    pstate := .playing
    plen := length
    ppos := 0
    pchan := ch
    events := s.events ++ [.startPlayback length ch] }

/-- The slot of one entry is played (R113): the level goes to the history and the output, and `ppos` moves
on. After the last entry the collaborator stops output, `tx` is OFF (R114; DEDUCED, log 11). -/
def State.playEntry (s : State) (lvl : Level) : State :=
  { s with
    tx := if s.ppos + 1 = s.plen then .off else lvl
    trace := s.trace ++ [(s.pchan, lvl)]
    ppos := s.ppos + 1 }

/-- `plen`, `ppos` and `pchan` have no value while Stopped (R26, U12): free values within the bounds of
R18 and the type `Chan` (log 5). -/
def State.forgetPlayback (s : State) : State :=
  { s with
    plen := Config.freePlen s.draws % (s.cfg.cap + 1)
    ppos := Config.freePpos s.draws % (Config.freePlen s.draws % (s.cfg.cap + 1) + 1)
    pchan := s.cfg.chanType.select (Config.freePchan s.draws)
    draws := s.draws + 1 }

/-- The completion handler's assignment and the collaborator's stop (R137): the entry of the block's one
asynchronous event. -/
def State.takeCompletion (s : State) : State :=
  { s.forgetPlayback with
    tstate := .idle
    pstate := .stopped
    events := s.events ++ [.complete] }

/-- The joint reset (R145, R146, R26). The values R26 leaves unspecified are free (log 5); the
parameters, the schedule and the draw counter are not hardware state and stay (R148, log 21). -/
def State.afterReset (s : State) : State :=
  { State.resetWith s.cfg with
    chan := s.cfg.chanType.select (Config.freeChan s.draws)
    plen := s.forgetPlayback.plen
    ppos := s.forgetPlayback.ppos
    pchan := s.forgetPlayback.pchan
    draws := s.draws + 1
    script := s.script }

/-- Build the machine: R6 refuses an ill-formed configuration before any run. -/
def boot (p : Params) : Answer :=
  match p.build with
  | some c => .next (State.resetWith c)
  | none => .refused .illFormedConfiguration

/-- An operation that can only fault, as an answer. -/
def Answer.ofExcept : Except Fault State → Answer
  | .ok s => .next s
  | .error f => .fault f

/-- `hold until tstate = Idle`, the head of UPDATE and TRANSMIT (R96): held while Busy, at once while Idle.
One request is outstanding at most (R19). -/
def holdUntilIdle (r : Request) (body : State → Answer) (s : State) : Answer :=
  match s.pending with
  | some _ => .refused .requestOutstanding
  | none =>
    match s.tstate with
    | .busy => .next (s.hold r)
    | .idle => body s

end Sys2Proof.Machine
end

