-- ==== Sys2Proof/Machine/Operands.lean ====
section
/-! DEFINITION. What the encoder computes from its operand and the parameters: the code, its bits in transmit
order, and the length, level and byte of a run (R51 to R57, R81). -/

namespace Sys2Proof.Machine

/-- `code = (~raw)[5:0]`, of byte 5 of the identifier (R51, R73). -/
def codeOf (raw : Byte) : Code := (~~~raw).setWidth 6

/-- The bit at transmit position `k`: `code[5 - k]`, most significant first (R54). -/
def codeBit (code : Code) (k : Nat) : Bool := code.getLsbD (5 - k)

/-- Entries in a run that conveys a bit (R53). -/
def runLength (c : Config) (b : Bool) : Nat := if b then c.p1 else c.p0

/-- The level of data run `k`: ON for an even transmit position (R57, D5, U20). The one place that fixes
which index is even. -/
def dataLevel (k : Nat) : Level := if k % 2 = 0 then .on else .off

/-- The byte written for a level (R31). -/
def levelByte (c : Config) : Level → Byte
  | .on => c.onMark
  | .off => 0

end Sys2Proof.Machine
end

