-- ==== Sys2Proof/Machine/Flags.lean ====
section
/-! DEFINITION. The two one-bit flags (R22): `tstate` as software sees it, and the encoder's running
parity. -/

namespace Sys2Proof.Machine

/-- `Idle = 0`, `Busy = 1` (R12). -/
def TransmitState.bit : TransmitState → BitVec 1
  | .idle => 0
  | .busy => 1

/-- The status output `ready = (tstate = Idle)` (R98). -/
def State.ready (s : State) : Bool := decide (s.tstate = .idle)

/-- Running parity at the start of an ENCODE: true, even (R55). -/
def parityStart : Bool := true

/-- Running parity flips on every 1 bit (R55, R75). -/
def parityStep (par b : Bool) : Bool := if b then !par else par

/-- Entries in the parity run: `P0` if even (true), else `P1` (R55, R76). -/
def parityLength (c : Config) (par : Bool) : Nat := if par then c.p0 else c.p1

end Sys2Proof.Machine
end

