-- ==== Sys2Proof/Machine/Encoder.lean ====
section
/-! DEFINITION. ENCODE: the run primitive, the five phases and the operation (R70 to R77, R80). Each entry is
one `memWrite` at `cursor`; the whole is one step (R85, D22; log 6). -/

namespace Sys2Proof.Machine

/-- `MemWrite(cursor, 1, v); cursor <- cursor + 1` (R72, R77). -/
def storeEntry (v : Byte) (s : State) : Except Fault State :=
  (memWrite s s.cursor v).map fun t => t.setCursor (t.cursor + 1)

/-- `emit(n, v)`, the run primitive (R72); `n` is the transient `run` of R16. -/
def emit : Nat → Byte → State → Except Fault State
  | 0, _, s => .ok s
  | n + 1, v, s => (storeEntry v s).bind (emit n v)

/-- The transients that live from one phase to the next (R16). -/
structure Transients where
  code : Code
  par : Bool
  deriving DecidableEq, Repr

/-- Phase CODE (R73): the code, the parity at its start, and `cursor <- 0`. -/
def phaseCode (id : TransponderId) (s : State) : Transients × State :=
  (⟨codeOf id.b5, parityStart⟩, s.setCursor 0)

/-- Phase HEADER (R74). -/
def phaseHeader (s : State) : Except Fault State :=
  (emit s.cfg.p0 (levelByte s.cfg .on) s).bind (emit s.cfg.p0 (levelByte s.cfg .off))

/-- Phase DATA at transmit position `k` (R75). -/
def phaseDataRun (k : Nat) (x : Transients × State) : Except Fault (Transients × State) :=
  let b := codeBit x.1.code k
  let par := parityStep x.1.par b
  (emit (runLength x.2.cfg b) (levelByte x.2.cfg (dataLevel k)) x.2).map fun t => (⟨x.1.code, par⟩, t)

/-- Phase DATA over a list of transmit positions (R75). -/
def phaseData : List Nat → Transients × State → Except Fault (Transients × State)
  | [], x => .ok x
  | k :: ks, x => (phaseDataRun k x).bind (phaseData ks)

/-- Phase PARITY (R76): always ON. -/
def phaseParity (x : Transients × State) : Except Fault State :=
  emit (parityLength x.2.cfg x.1.par) (levelByte x.2.cfg .on) x.2

/-- The loop of phase PAD, `while cursor < FRAME_LEN` (R77); the first argument bounds the turns. -/
def padLoop : Nat → State → Except Fault State
  | 0, s => .ok s
  | n + 1, s => if s.cursor < s.cfg.frameLen then (storeEntry 0 s).bind (padLoop n) else .ok s

/-- Phase PAD (R77): the loop takes at most `FRAME_LEN` turns. -/
def phasePad (s : State) : Except Fault State := padLoop s.cfg.frameLen s

/-- ENCODE (R71): the phases in order. The returned count is `cursor` (R70). -/
def runEncode (id : TransponderId) (s : State) : Except Fault State :=
  let x := phaseCode id s
  (phaseHeader x.2).bind fun s₁ =>
  (phaseData [0, 1, 2, 3, 4, 5] (x.1, s₁)).bind fun y =>
  (phaseParity y).bind phasePad

/-- ENCODE as an operation of its own (R70). UPDATE is its only caller in the hardware (R92); run while
Busy, its first write is the fault of R128. -/
def execEncode (id : TransponderId) (s : State) : Answer := Answer.ofExcept (runEncode id s)

end Sys2Proof.Machine
end

