-- ==== Sys2Proof/Machine/Transmitter.lean ====
section
/-! DEFINITION. The operations of the Transmitter: ISREADY, UPDATE, TRANSMIT, the reserved opcode and INIT
(R90 to R98, R62). -/

namespace Sys2Proof.Machine

/-- ISREADY (R98): answers `ready`; never held, in any state. -/
def execIsready (s : State) : Answer := .next (s.answer s.ready)

/-- UPDATE (R92, R93): held while Busy, else ENCODE; the flag stays Idle and the count is discarded. -/
def execUpdate (id : TransponderId) (s : State) : Answer :=
  holdUntilIdle (.update id) (fun s => Answer.ofExcept (runEncode id s)) s

/-- TRANSMIT once its hold is over (R95): without a channel refused (R97 (c), D16), else `cursor <- 0`,
`tstate <- Busy`, START_PLAYBACK of `FRAME_LEN` entries on `chan` (D7). -/
def transmitBody (s : State) : Answer :=
  if s.chanValid then .next (((s.setCursor 0).setBusy).startPlayback s.cfg.frameLen s.chan)
  else .refused .noChannel

/-- TRANSMIT (R95, R97). -/
def execTransmit (s : State) : Answer := holdUntilIdle .transmit transmitBody s

/-- The reserved opcode (R62, D9): the model refuses it, with no state change. -/
def execReservedOp3 (_s : State) : Answer := .refused .reservedOpcode

/-- INIT (R90): the handle is taken once, unchecked; a second INIT is refused (D17). -/
def execInit (ch : Chan) (s : State) : Answer :=
  if s.chanValid then .refused .alreadyInitialised else .next (s.supplyChannel ch)

end Sys2Proof.Machine
end

