-- ==== Sys2Proof/Machine/Playback.lean ====
section
/-! DEFINITION. The collaborator's operations, START_PLAYBACK, PLAY_STEP and COMPLETE (R110 to R115, R137,
R139), and RESET (R145 to R148). -/

namespace Sys2Proof.Machine

/-- START_PLAYBACK as an operation of its own (R112), inside the preconditions of R111. TRANSMIT is its only
caller in the hardware. -/
def execStartPlayback (length : Nat) (ch : Chan) (s : State) : Answer :=
  if length ≤ s.cfg.cap ∧ s.pstate = .stopped ∧ s.tstate = .busy then .next (s.startPlayback length ch)
  else .refused .startPlaybackNotEnabled

/-- PLAY_STEP (R113): enabled iff Playing with an entry left. -/
def execPlayStep (s : State) : Answer :=
  if s.pstate = .playing ∧ s.ppos < s.plen then
    Answer.ofExcept ((memRead s s.ppos).map fun e => s.playEntry (Level.ofByte e))
  else .refused .playStepNotEnabled

/-- COMPLETE (R137), as what the signal does when it arrives: due when Playing with every entry played. While
Idle and not owed the handler's assignment changes nothing (R139, D13); that signal is injected, for the
collaborator has no such move (`fetch`, R115). While Busy and not due the model has no step (R139). -/
def execComplete (s : State) : Answer :=
  if s.pstate = .playing ∧ s.ppos = s.plen then .next s.takeCompletion
  else if s.tstate = .idle then .next s
  else .refused .completeNotEnabled

/-- RESET (R145, R146): at any time, over anything in progress or held. -/
def execReset (s : State) : Answer := .next s.afterReset

end Sys2Proof.Machine
end

