-- ==== Sys2Proof/Machine/Dispatch.lean ====
section
/-! DEFINITION. The meaning of every operation: one arm per row of the opcode table. -/

namespace Sys2Proof.Machine

def exec (i : Instr) (s : State) : Host.Outcome State Fault Refusal :=
  match i with
  | .isready => Sys2Proof.Machine.execIsready s
  | .update id => Sys2Proof.Machine.execUpdate id s
  | .transmit => Sys2Proof.Machine.execTransmit s
  | .reservedOp3 => Sys2Proof.Machine.execReservedOp3 s
  | .init ch => Sys2Proof.Machine.execInit ch s
  | .reset => Sys2Proof.Machine.execReset s
  | .encode id => Sys2Proof.Machine.execEncode id s
  | .startPlayback length ch => Sys2Proof.Machine.execStartPlayback length ch s
  | .playStep => Sys2Proof.Machine.execPlayStep s
  | .complete => Sys2Proof.Machine.execComplete s

end Sys2Proof.Machine
end

