-- ==== Sys2Proof/Machine/Fetch.lean ====
section
/-! DEFINITION. Which operation a move of an agent is, and the state it acts on. The block has no program
counter (R21): what happens next is the next move of one of its agents (R131, R135; log 7). -/

namespace Sys2Proof.Machine

/-- The schedule without its next move. -/
def State.popMove (s : State) : State := { s with script := s.script.tail }

/-- The held request leaves `pending` to take its step (R96). -/
def State.releaseHold (s : State) : State := { s with pending := none }

/-- Whether an operation can be held, so that the completion context may not issue it (R133, R156). -/
def mayBlock : Instr → Bool
  | .update _ => true
  | .transmit => true
  | .isready => false
  | .reservedOp3 => false
  | .init _ => false
  | .reset => false
  | .encode _ => false
  | .startPlayback _ _ => false
  | .playStep => false
  | .complete => false

/-- A decoded port signal, as a fetch. -/
def fetchSignal (s : State) (sig : Signal) : Except Refusal (Instr × State) :=
  match decode s.cfg sig with
  | .ok i => .ok (i, s)
  | .error why => .error (.undecodable why)

/-- A request word with the context that presents it (R133). -/
def fetchRequest (s : State) (ctx : Context) (word : Nat) : Except Refusal (Instr × State) :=
  match fetchSignal s (.request word) with
  | .ok (i, t) =>
    if ctx = .completion ∧ mayBlock i = true then .error .blockingInCompletionContext else .ok (i, t)
  | .error r => .error r

/-- The held operation's own step (R96): no enabled step while Busy. -/
def fetchHeld (s : State) : Except Refusal (Instr × State) :=
  match s.pending with
  | none => .error .nothingHeld
  | some r =>
    match s.tstate with
    | .busy => .error .waitIdle
    | .idle => .ok (r.instr, s.releaseHold)

/-- The operation a move is, and the state it acts on. COMPLETE is a move of the collaborator iff it is due
(R115 (1)). -/
def fetch (m : Move) (s : State) : Except Refusal (Instr × State) :=
  match m with
  | .request ctx word => fetchRequest s ctx word
  | .config ch => fetchSignal s (.cfgValid ch)
  | .reset => fetchSignal s .rst
  | .playStep => .ok (.playStep, s)
  | .complete =>
    if s.pstate = .playing ∧ s.ppos = s.plen then fetchSignal s .playDone else .error .completeNotEnabled
  | .resume => fetchHeld s

end Sys2Proof.Machine
end

