-- ==== Sys2Proof/Machine/Step.lean ====
section
/-! DEFINITION. One step of the interleaving (R41): the next move's operation, executed. -/

namespace Sys2Proof.Machine

/-- One atomic step of one agent: a move's operation, executed. -/
def takeMove (m : Move) (s : State) : Answer :=
  match fetch m s with
  | .ok (i, t) => exec i t
  | .error r => .refused r

/-- The next move of the schedule is made. With none left no agent moves and nothing changes: the block has no
halt (R164; log 7). -/
def step (s : State) : Host.Outcome State Fault Refusal :=
  match s.script with
  | [] => .next s
  | m :: _ => takeMove m s.popMove

/-- `s` with the port the opcode table's words are written for (log 2). -/
def State.withTablePort (s : State) : State := { s with cfg := s.cfg.withTablePort }

/-- `s` with a request word of the opcode table presented, on the table's port, by the caller as the next move
(log 2 and 7). -/
def State.withFetchWord (s : State) (nbits w : Nat) : State :=
  { s.withTablePort with script := .request .caller (w % 2 ^ nbits) :: s.script }

end Sys2Proof.Machine
end

