-- ==== Sys2Proof/Machine/Frame.lean ====
section
/-! DEFINITION. The frame format in closed form (R50, R58) and its inverse (R59). No operation uses them:
ENCODE follows the algorithm of R71, and claims compare it with the closed form. -/

namespace Sys2Proof.Machine

/-- The number of 1 bits of a code (R8). -/
def popcount (code : Code) : Nat := (List.range 6).countP fun i => code.getLsbD i

/-- `L(k)` of R58. -/
def dataLength (c : Config) (code : Code) (k : Nat) : Nat := if codeBit code k then c.p1 else c.p0

/-- `V(k)` of R58. -/
def dataByte (c : Config) (k : Nat) : Byte := levelByte c (dataLevel k)

/-- `Lp` of R58. -/
def parityRun (c : Config) (code : Code) : Nat := if popcount code % 2 = 0 then c.p0 else c.p1

/-- `used` of R58: entries before the padding. -/
def used (c : Config) (code : Code) : Nat :=
  2 * c.p0 + ((List.range 6).map (dataLength c code)).sum + parityRun c code

/-- The ten runs of a frame, as (byte, length) in buffer order (R50). -/
def frameRuns (c : Config) (code : Code) : List (Byte × Nat) :=
  [(c.onMark, c.p0), (0, c.p0)]
    ++ (List.range 6).map (fun k => (dataByte c k, dataLength c code k))
    ++ [(c.onMark, parityRun c code), (0, c.frameLen - used c code)]

/-- `frame(code)` (R58). -/
def frame (c : Config) (code : Code) : List Byte :=
  (frameRuns c code).flatMap fun r => List.replicate r.2 r.1

/-- Maximal runs of equal level, with their lengths (R59). -/
def runsOf : List Level → List (Level × Nat)
  | [] => []
  | l :: ls =>
    match runsOf ls with
    | [] => [(l, 1)]
    | (l', n) :: rs => if l = l' then (l, n + 1) :: rs else (l, 1) :: (l', n) :: rs

/-- The bit a run's length conveys, if it conveys one (R59). -/
def bitOfRun (c : Config) (n : Nat) : Option Bool :=
  if n = c.p0 then some false else if n = c.p1 then some true else none

/-- Six bits, most significant first, as a code (R59). -/
def codeOfBits (bits : List Bool) : Code :=
  BitVec.ofNat 6 (bits.foldl (fun n b => 2 * n + b.toNat) 0)

/-- Read a frame back (R59): none where the entries are no valid frame. -/
def decodeFrame (c : Config) (entries : List Byte) : Option Code :=
  let runs := runsOf (entries.map Level.ofByte)
  let lengths := runs.map (·.2)
  if entries.length = c.frameLen ∧ runs.length = 10 ∧ (runs.map (·.1)).head? = some .on
      ∧ lengths.take 2 = [c.p0, c.p0] then
    match ((lengths.drop 2).take 7).mapM (bitOfRun c) with
    | none => none
    | some bits => if bits.foldl xor false = false then some (codeOfBits (bits.take 6)) else none
  else none

end Sys2Proof.Machine
end

