-- ==== Sys2Proof/Safety.lean ====
section
/-! DEFINITION. The terms claims are stated in: the invariants of R25 and R18, the latest frame and the output
history (R25, R117, R166), a whole playback (R117), the assumption `PlaybackCompletes` (R116), and runs and their
end (R164). -/

namespace Sys2Proof.Machine

/-- The frame region of the buffer, `buf[0 .. FRAME_LEN-1]` (R37). -/
def State.frameRegion (s : State) : List Byte := (List.range s.cfg.frameLen).map (Memory.read s.buf)

/-- Only the buffer and the cursor may differ: everything else of `t` is as in `s`. -/
def State.sameButBuffer (s t : State) : Prop := t = { s with buf := t.buf, cursor := t.cursor }

/-- The invariants of R25 (I-2 to I-6), of R18, and what R114 and R119 say of the output while and between
playbacks. -/
structure State.Inv (s : State) : Prop where
  /-- The buffer is in its canonical form. -/
  canonical : Memory.wf s.buf
  /-- I-2, R14. -/
  cursorInRange : s.cursor ≤ s.cfg.frameLen
  /-- I-3: the tail is never written. -/
  tailZero : ∀ i, s.cfg.frameLen ≤ i → Memory.read s.buf i = 0
  /-- I-6. -/
  entryAlphabet : ∀ i, Memory.read s.buf i = 0 ∨ Memory.read s.buf i = s.cfg.onMark
  /-- The shape I-4 gives the frame region, without saying which code: all zero, or the frame of one. Which code,
  I-4 itself, is `State.Follows`, about a state and the history that led to it. -/
  frameShape : s.frameRegion = List.replicate s.cfg.frameLen 0 ∨ ∃ code, s.frameRegion = frame s.cfg code
  /-- I-5, R18. -/
  playingIffBusy : s.pstate = .playing ↔ s.tstate = .busy
  /-- R18: the ranges of `ppos` and `plen`. -/
  positionInRange : s.ppos ≤ s.plen ∧ s.plen ≤ s.cfg.cap
  /-- R95, R119: what a playback in flight plays, and where. -/
  playback : s.pstate = .playing → s.plen = s.cfg.frameLen ∧ s.pchan = s.chan ∧ s.chanValid = true
  /-- R114: the output is OFF before the first entry, after the last one and between playbacks. -/
  darkAtRest : s.pstate = .stopped ∨ s.ppos = 0 ∨ s.ppos = s.plen → s.tx = .off
  /-- R113: within a playback the output is the level of the entry last played. -/
  slotLevel : s.pstate = .playing → 0 < s.ppos → s.ppos < s.plen →
    s.tx = Level.ofByte (Memory.read s.buf (s.ppos - 1))
  /-- R5, R15, R18: the channel registers hold values of the type `Chan`. -/
  handles : s.cfg.chanType.has s.chan = true ∧ s.cfg.chanType.has s.pchan = true
  /-- R96, R95: a request is held while Busy only, and Busy has a channel, which stays while the request is held. -/
  heldHasChannel : s.pending ≠ none → s.chanValid = true

/-- What one whole playback emits (R117, R166): the levels of a frame, or `FRAME_LEN` OFF slots. -/
def IsEmission (c : Config) (ls : List Level) : Prop :=
  ls = List.replicate c.frameLen .off ∨ ∃ code, ls = (frame c code).map Level.ofByte

/-- The levels the playback in flight has emitted so far. -/
def State.inFlight (s : State) : List Level :=
  match s.pstate with
  | .stopped => []
  | .playing => (s.frameRegion.take s.ppos).map Level.ofByte

/-- Playbacks completed, by the history (R27). -/
def completions (es : List Event) : Nat := es.countP fun e => decide (e = .complete)

/-- Playbacks started, by the history (R27). -/
def starts (es : List Event) : Nat := es.countP fun e => decide (e ≠ .complete)

/-- R166: the output history is one whole emission per completed playback, then the playback in flight, all
on the one channel (R119); and every start but the one in flight has completed exactly once (R115 (1)). -/
structure State.TraceOfFrames (s : State) : Prop where
  emissions : ∃ fs : List (List Level),
    fs.length = completions s.events ∧ (∀ f ∈ fs, IsEmission s.cfg f) ∧
      s.trace = (fs.flatten ++ s.inFlight).map fun l => (s.chan, l)
  silentBeforeInit : s.chanValid = false → s.trace = []
  exactlyOnce : starts s.events = completions s.events + (if s.pstate = .playing then 1 else 0)

/-! ## The history of a run

What a claim about the latest UPDATE speaks of is no state of the block (R10, R17: the identifier is not
retained), so it is kept beside the states of a run, not in them. -/

/-- What a run has staged and sent since its start or its last RESET. -/
structure History where
  /-- The code of the most recent UPDATE to have completed, none before the first (R25, I-4). -/
  staged : Option Code
  /-- What was staged at each START_PLAYBACK, in order. -/
  sent : List (Option Code)
  deriving DecidableEq, Repr

/-- The history at process start. -/
def History.start : History := ⟨none, []⟩

/-- The history once an operation has gone on from a state. An UPDATE or a TRANSMIT that is held has not
completed (R96). -/
def History.after (h : History) (i : Instr) (s : State) : History :=
  match i with
  | .isready => h
  | .update id => if s.tstate = .idle then { h with staged := some (codeOf id.b5) } else h
  | .transmit => if s.tstate = .idle then { h with sent := h.sent ++ [h.staged] } else h
  | .reservedOp3 => h
  | .init _ => h
  | .reset => .start
  | .encode id => { h with staged := some (codeOf id.b5) }
  | .startPlayback _ _ => { h with sent := h.sent ++ [h.staged] }
  | .playStep => h
  | .complete => h

/-- The history once the state's next move has been made. -/
def History.next (h : History) (s : State) : History :=
  match s.script with
  | [] => h
  | m :: _ =>
    match fetch m s.popMove with
    | .ok (i, t) => h.after i t
    | .error _ => h

/-- The frame region that a history leaves staged: the frame of the code, all zero before the first UPDATE
(R25, I-4). -/
def stagedFrame (c : Config) : Option Code → List Byte
  | none => List.replicate c.frameLen 0
  | some code => frame c code

/-- The levels a playback of what was staged emits (R117). -/
def emission (c : Config) (staged : Option Code) : List Level := (stagedFrame c staged).map Level.ofByte

/-- A state is the one its history leads to: I-4 of R25, and the output history of R166, code by code. -/
structure State.Follows (s : State) (h : History) : Prop where
  /-- I-4: the frame of the most recent UPDATE's code, all zero before the first UPDATE. -/
  latestFrame : s.frameRegion = stagedFrame s.cfg h.staged
  /-- Every START_PLAYBACK has sent what was staged at it. -/
  started : h.sent.length = starts s.events
  /-- R166: one whole emission per completed playback, each of the code staged before it, then the one in
  flight. -/
  emitted : s.trace =
    ((h.sent.take (completions s.events)).flatMap (emission s.cfg) ++ s.inFlight).map fun l => (s.chan, l)
  /-- The playback in flight sends what is staged. -/
  inFlightIsStaged : s.pstate = .playing → h.sent.getLast? = some h.staged

/-- The states a run can reach from process start, with the history that led there, whatever the schedule. -/
inductive Reachable (c : Config) : History → State → Prop where
  | start (script : List Move) : Reachable c .start { State.resetWith c with script := script }
  | step {h : History} {s t : State} : Reachable c h s → Machine.step s = .next t → Reachable c (h.next s) t

/-! ## Progress -/

/-- `n` PLAY_STEPs of the collaborator in a row. -/
def playSteps : Nat → State → Answer
  | 0, s => .next s
  | n + 1, s =>
    match exec .playStep s with
    | .next t => playSteps n t
    | .fault f => .fault f
    | .refused r => .refused r

/-- The collaborator makes good on a playback with no other agent's move between: its remaining PLAY_STEPs, then
its COMPLETE. One of the runs that `Run.PlaybackCompletes` admits (R116). -/
def finishPlayback (s : State) : Answer :=
  match playSteps (s.plen - s.ppos) s with
  | .next t => exec .complete t
  | .fault f => .fault f
  | .refused r => .refused r

/-- A move that can be made: it is a step of its agent, not a stop. -/
def Enabled (m : Move) (s : State) : Prop := ∃ t, takeMove m s = .next t

/-- An unending run: the moves of all agents in the order in which they are made (R41), with nothing said of
which agent moves when. An agent that waits leaves the moves to the others; the hang of R126 is a run. -/
structure Run where
  state : Nat → State
  move : Nat → Move
  made : ∀ n, takeMove (move n) (state n) = .next (state (n + 1))

/-- Weak fairness of a move: from no moment on is it always enabled and never made. -/
def Run.WeaklyFair (r : Run) (m : Move) : Prop :=
  ∀ n, (∀ k, n ≤ k → Enabled m (r.state k)) → ∃ k, n ≤ k ∧ r.move k = m

/-- The named assumption `PlaybackCompletes` (R116, D24): weak fairness of the collaborator's two steps. No safety
claim rests on it. -/
def Run.PlaybackCompletes (r : Run) : Prop := r.WeaklyFair .playStep ∧ r.WeaklyFair .complete

/-- The core does not leave a held operation aside for ever once its hold is lifted (R96): weak fairness of the
step it then takes. Not part of `PlaybackCompletes` (log 8). -/
def Run.HeldProceeds (r : Run) : Prop := r.WeaklyFair .resume

/-- A move presents a request that can be held (R61). -/
def Blocks (c : Config) (m : Move) : Prop :=
  ∃ ctx w i, m = .request ctx w ∧ decode c (.request w) = .ok i ∧ mayBlock i = true

/-! ## The end of a run -/

/-- The state in which a run that nothing has stopped ends final (R164): the script is at its end, no request is
held, no playback is in flight and no completion pending. -/
def State.Final (s : State) : Prop :=
  s.script = [] ∧ s.pending = none ∧ s.pstate = .stopped ∧ s.tstate = .idle

/-- `n` steps, or as many as are made before a stop. -/
def runFor : Nat → State → Answer
  | 0, s => .next s
  | n + 1, s =>
    match step s with
    | .next t => runFor n t
    | .fault f => .fault f
    | .refused r => .refused r

/-- The run of a state's whole script: the state at its end, or the fault or refusal recorded on the way. -/
def runScript (s : State) : Answer := runFor s.script.length s

/-- R164: a run ends final iff no fault or refusal is recorded and its end state is final. -/
def Answer.Final : Answer → Prop
  | .next s => s.Final
  | .fault _ => False
  | .refused _ => False

end Sys2Proof.Machine
end

