-- ==== Sys2Proof/Certificates/Slice0/Obligations.lean ====
section
/-! DEFINITION. The statements for the provers. Each docstring names the rules it comes from; a decision of the
spec or of the model that it rests on is named there too. -/

open Sys2Proof Sys2Proof.Machine

/-! ## Encodings -/

/-- R60, R61, R63, R64 (the layout is decision D8): decoding the encoding of a well-formed operation gives that
operation, with every operand, in every configuration. -/
def Obligations.DecodeEncodeRoundTrip : Prop :=
  ∀ (c : Config) (i : Instr) (sig : Signal),
    i.wellFormed c = true → encode c i = some sig → decode c sig = .ok i

/-- R60, R61, R65 (D8): every word of the port is one of the four request operations, chosen by the two `op`
bits alone, and byte `i` of UPDATE's identifier is bits `8*i+7 .. 8*i`. -/
def Obligations.RequestWordDecodesByOpBits : Prop :=
  ∀ (c : Config) (w : Nat), w < 2 ^ c.requestBits →
    (w / 2 ^ (8 * c.idLen) = 0 ∧ decode c (.request w) = .ok .isready) ∨
    (w / 2 ^ (8 * c.idLen) = 1 ∧ ∃ id : TransponderId, decode c (.request w) = .ok (.update id) ∧
      id.wellFormed c = true ∧
      ∀ i, i < c.idLen → id.bytes[i]? = some (BitVec.ofNat 8 (w / 2 ^ (8 * i)))) ∨
    (w / 2 ^ (8 * c.idLen) = 2 ∧ decode c (.request w) = .ok .transmit) ∨
    (w / 2 ^ (8 * c.idLen) = 3 ∧ decode c (.request w) = .ok .reservedOp3)

/-- Section 6 of 95_test_vectors (D8): the spec's own request words for `ID_LEN = 6`. -/
def Obligations.SpecWordsDecode : Prop :=
  decodeTableWord 56 0x0000000000000 = some .isready ∧
  decodeTableWord 56 0x0FFFFFFFFFFFF = some .isready ∧
  decodeTableWord 56 0x13F0000000000 = some (.update ⟨0, 0, 0, 0, 0, 0x3F, []⟩) ∧
  decodeTableWord 56 0x1D501EFBEADDE = some (.update ⟨0xDE, 0xAD, 0xBE, 0xEF, 0x01, 0xD5, []⟩) ∧
  decodeTableWord 56 0x2000000000000 = some .transmit ∧
  decodeTableWord 56 0x3000000000000 = some .reservedOp3

/-- R60, R63, R64, R65: what the ports cannot carry is rejected by name (the model's reading, log 16 and 3). -/
def Obligations.SignalsTooWideAreRejected : Prop :=
  ∀ c : Config,
    (∀ w, 2 ^ c.requestBits ≤ w → decode c (.request w) = .error .requestTooWide) ∧
    (∀ n ch, 2 ^ c.cursorW ≤ n → decode c (.playStart n ch) = .error .lengthTooWide) ∧
    (∀ ch, c.chanType.has ch = false → decode c (.cfgValid ch) = .error .notAHandle)

/-! ## The code and the frame -/

/-- R51: the four forms of the code, and that nothing of the identifier but bits 5 to 0 of byte 5 has an effect
on an ENCODE. -/
def Obligations.CodeIsComplementOfSixBits : Prop :=
  (∀ raw : Byte,
    codeOf raw = (~~~raw).setWidth 6 ∧
    (codeOf raw).toNat = 63 - raw.toNat % 64 ∧
    codeOf raw = (~~~raw &&& 0x3F).setWidth 6 ∧
    codeOf raw = raw.setWidth 6 ^^^ 0x3F) ∧
  (∀ (id id' : TransponderId) (s : State),
    id.b5.setWidth 6 = id'.b5.setWidth 6 → exec (.encode id) s = exec (.encode id') s)

/-- R50, R57 (level of a data run: decision D5, one definition `dataLevel`): a frame is `FRAME_LEN` entries in
ten maximal runs that alternate strictly from ON, with the lengths of R50. -/
def Obligations.FrameHasTenAlternatingRuns : Prop :=
  ∀ (c : Config) (code : Code),
    (frame c code).length = c.frameLen ∧
    runsOf ((frame c code).map Level.ofByte) =
      [(.on, c.p0), (.off, c.p0),
       (.on, if code.getLsbD 5 then c.p1 else c.p0), (.off, if code.getLsbD 4 then c.p1 else c.p0),
       (.on, if code.getLsbD 3 then c.p1 else c.p0), (.off, if code.getLsbD 2 then c.p1 else c.p0),
       (.on, if code.getLsbD 1 then c.p1 else c.p0), (.off, if code.getLsbD 0 then c.p1 else c.p0),
       (.on, if popcount code % 2 = 0 then c.p0 else c.p1), (.off, c.frameLen - used c code)]

/-- R59: a frame read back gives its code, so that distinct codes have distinct frames. -/
def Obligations.FrameReadsBack : Prop :=
  ∀ (c : Config) (code : Code), decodeFrame c (frame c code) = some code

/-- R58, R82: the entries before the padding, `(9 - m)*P0 + m*P1` with `m` the number of long runs, their maximum
`WORST` and minimum `9*P0`, and the codes that reach them. -/
def Obligations.UsedLengthByPopcount : Prop :=
  ∀ (c : Config) (code : Code),
    used c code = (9 - (popcount code + popcount code % 2)) * c.p0
      + (popcount code + popcount code % 2) * c.p1 ∧
    used c code ≤ c.worst ∧ 9 * c.p0 ≤ used c code ∧
    (used c code = c.worst ↔ 5 ≤ popcount code) ∧
    (used c code = 9 * c.p0 ↔ code = 0)

/-- R55 (the off entries at its two ends: R57 with decision D5, log 15, and R56 with R6's strict fit, decision D4;
one-step ENCODE: log 6): the running parity starts even, flips on every 1 bit and makes the seven bits' exclusive-or 0; and the
parity run ENCODE writes has `P0` entries for an even number of 1 bits, `P1` for an odd one, all `ON_MARK`, with
off entries right before and right after it. -/
def Obligations.ParityRunMakesOnesEven : Prop :=
  (∀ code : Code,
    [0, 1, 2, 3, 4, 5].foldl (fun par k => parityStep par (codeBit code k)) parityStart
      = decide (popcount code % 2 = 0) ∧
    ([0, 1, 2, 3, 4, 5].map (codeBit code)).foldl xor (decide (popcount code % 2 = 1)) = false) ∧
  (∀ (s : State) (id : TransponderId), Memory.wf s.buf → s.tstate = .idle →
    ∃ t, exec (.encode id) s = .next t ∧
      ∀ i,
        2 * s.cfg.p0 + ((List.range 6).map (dataLength s.cfg (codeOf id.b5))).sum ≤ i →
        i < 2 * s.cfg.p0 + ((List.range 6).map (dataLength s.cfg (codeOf id.b5))).sum
          + (if popcount (codeOf id.b5) % 2 = 0 then s.cfg.p0 else s.cfg.p1) →
        Memory.read t.buf i = s.cfg.onMark) ∧
  (∀ (s : State) (id : TransponderId) (t : State), Memory.wf s.buf → s.tstate = .idle →
    exec (.encode id) s = .next t →
    Memory.read t.buf (2 * s.cfg.p0 + ((List.range 6).map (dataLength s.cfg (codeOf id.b5))).sum - 1) = 0 ∧
    Memory.read t.buf (2 * s.cfg.p0 + ((List.range 6).map (dataLength s.cfg (codeOf id.b5))).sum
      + (if popcount (codeOf id.b5) % 2 = 0 then s.cfg.p0 else s.cfg.p1)) = 0)

/-! ## The buffer and the encoder -/

/-- R33, R36, R39, R128 (the faults are decision D19; Busy is named before the range, log 14): what a write and a
read of one entry do. -/
def Obligations.OneEntryAccess : Prop :=
  ∀ (s : State) (a : Nat) (v : Byte), Memory.wf s.buf →
    (s.tstate = .busy → memWrite s a v = .error .bufferWriteWhileBusy) ∧
    (s.tstate = .idle → s.cfg.cap ≤ a → memWrite s a v = .error .bufferIndexOutOfRange) ∧
    (s.tstate = .idle → a < s.cfg.cap → ∃ t, memWrite s a v = .ok t ∧ t = { s with buf := t.buf } ∧
      Memory.wf t.buf ∧ Memory.read t.buf a = v ∧
      ∀ b, b ≠ a → Memory.read t.buf b = Memory.read s.buf b) ∧
    (a < s.cfg.cap → memRead s a = .ok (Memory.read s.buf a)) ∧
    (s.cfg.cap ≤ a → memRead s a = .error .bufferIndexOutOfRange)

/-- R74: phase HEADER. -/
def Obligations.HeaderPhase : Prop :=
  ∀ s : State, Memory.wf s.buf → s.tstate = .idle → s.cursor = 0 →
    ∃ t, phaseHeader s = .ok t ∧ t.cursor = 2 * s.cfg.p0 ∧ s.sameButBuffer t ∧
      (∀ i, i < s.cfg.p0 → Memory.read t.buf i = s.cfg.onMark) ∧
      (∀ i, s.cfg.p0 ≤ i → i < 2 * s.cfg.p0 → Memory.read t.buf i = 0) ∧
      (∀ i, 2 * s.cfg.p0 ≤ i → Memory.read t.buf i = Memory.read s.buf i)

/-- R72: `emit(n, v)` stores `n` entries at the cursor and moves it on by `n`. -/
def Obligations.EmitWritesOneRun : Prop :=
  ∀ (s : State) (n : Nat) (v : Byte), Memory.wf s.buf → s.tstate = .idle → s.cursor + n ≤ s.cfg.frameLen →
    ∃ t, emit n v s = .ok t ∧ t.cursor = s.cursor + n ∧ s.sameButBuffer t ∧
      (∀ i, s.cursor ≤ i → i < s.cursor + n → Memory.read t.buf i = v) ∧
      (∀ i, i < s.cursor ∨ s.cursor + n ≤ i → Memory.read t.buf i = Memory.read s.buf i)

/-- R75 (that an even position is on: R57, decision D5, log 15): phase DATA at transmit position `k`, the bit `code[5 - k]`. -/
def Obligations.DataPhaseRun : Prop :=
  ∀ (s : State) (x : Transients) (k : Nat), k < 6 → Memory.wf s.buf → s.tstate = .idle →
    s.cursor + s.cfg.p1 ≤ s.cfg.frameLen →
    ∃ t, phaseDataRun k (x, s) =
        .ok (⟨x.code, if x.code.getLsbD (5 - k) then !x.par else x.par⟩, t) ∧
      t.cursor = s.cursor + (if x.code.getLsbD (5 - k) then s.cfg.p1 else s.cfg.p0) ∧ s.sameButBuffer t ∧
      (∀ i, s.cursor ≤ i → i < t.cursor →
        Memory.read t.buf i = if k = 0 ∨ k = 2 ∨ k = 4 then s.cfg.onMark else 0) ∧
      (∀ i, i < s.cursor ∨ t.cursor ≤ i → Memory.read t.buf i = Memory.read s.buf i)

/-- R76: phase PARITY, `P0` on entries if the parity is even (true) and `P1` if odd; after the six data iterations it
is even iff the code has an even number of 1 bits. -/
def Obligations.ParityPhase : Prop :=
  (∀ (s : State) (x : Transients), Memory.wf s.buf → s.tstate = .idle →
    s.cursor + s.cfg.p1 ≤ s.cfg.frameLen →
    ∃ t, phaseParity (x, s) = .ok t ∧
      t.cursor = s.cursor + (if x.par then s.cfg.p0 else s.cfg.p1) ∧ s.sameButBuffer t ∧
      (∀ i, s.cursor ≤ i → i < t.cursor → Memory.read t.buf i = s.cfg.onMark) ∧
      (∀ i, i < s.cursor ∨ t.cursor ≤ i → Memory.read t.buf i = Memory.read s.buf i)) ∧
  (∀ (s t : State) (code : Code) (y : Transients),
    phaseData [0, 1, 2, 3, 4, 5] (⟨code, true⟩, s) = .ok (y, t) → y.par = decide (popcount code % 2 = 0))

/-- R77: phase PAD writes 0 from the cursor to `FRAME_LEN - 1`, and nothing at or above `FRAME_LEN`; the padding
is never empty (R82 with R6's strict fit, decision D4). -/
def Obligations.PadPhase : Prop :=
  (∀ s : State, Memory.wf s.buf → s.tstate = .idle → s.cursor ≤ s.cfg.frameLen →
    ∃ t, phasePad s = .ok t ∧ t.cursor = s.cfg.frameLen ∧ s.sameButBuffer t ∧
      (∀ i, s.cursor ≤ i → i < s.cfg.frameLen → Memory.read t.buf i = 0) ∧
      (∀ i, i < s.cursor ∨ s.cfg.frameLen ≤ i → Memory.read t.buf i = Memory.read s.buf i)) ∧
  (∀ (c : Config) (code : Code), 1 ≤ c.frameLen - used c code)

/-- R70, R78, R80 (levels: decision D5, log 15; one step: D22, log 6): ENCODE, by its phases, completes for every identifier, leaves `cursor = FRAME_LEN` and
`frame(code)` in the frame region, and changes nothing else, the tail of the buffer included. -/
def Obligations.EncodeWritesTheFrame : Prop :=
  ∀ (s : State) (id : TransponderId), Memory.wf s.buf → s.tstate = .idle →
    ∃ t, exec (.encode id) s = .next t ∧
      t.cursor = s.cfg.frameLen ∧
      t.frameRegion = frame s.cfg (codeOf id.b5) ∧
      (∀ i, s.cfg.frameLen ≤ i → Memory.read t.buf i = Memory.read s.buf i) ∧
      s.sameButBuffer t

/-- R79: the frame region and the result depend on the six bits and the configuration only. -/
def Obligations.EncodeDependsOnSixBitsOnly : Prop :=
  ∀ (s s' : State) (id id' : TransponderId),
    Memory.wf s.buf → Memory.wf s'.buf → s.tstate = .idle → s'.tstate = .idle → s.cfg = s'.cfg →
    id.b5.setWidth 6 = id'.b5.setWidth 6 →
    ∃ t t', exec (.encode id) s = .next t ∧ exec (.encode id') s' = .next t' ∧
      t.frameRegion = t'.frameRegion ∧ t.cursor = t'.cursor

/-- R39, R128 (D19): an ENCODE while Busy would write the buffer being played, and is the fault. -/
def Obligations.EncodeWhileBusyFaults : Prop :=
  ∀ (s : State) (id : TransponderId), s.tstate = .busy →
    exec (.encode id) s = .fault .bufferWriteWhileBusy

/-! ## Requests -/

/-- R92: UPDATE is ENCODE once Idle, with the flag, the channel and the collaborator as they were, channel or no
channel; while Busy it is held. -/
def Obligations.UpdateStagesTheFrame : Prop :=
  ∀ (s : State) (id : TransponderId), s.pending = none →
    (Memory.wf s.buf → s.tstate = .idle →
      ∃ t, exec (.update id) s = .next t ∧ exec (.encode id) s = .next t ∧
        t.cursor = s.cfg.frameLen ∧ s.sameButBuffer t ∧
        (∀ i, s.cfg.frameLen ≤ i → Memory.read t.buf i = Memory.read s.buf i)) ∧
    (s.tstate = .busy → exec (.update id) s = .next { s with pending := some (.update id) })

/-- R95, R97 (length: decision D7, log 24; no channel: D16, log 23): TRANSMIT is held while Busy, is refused without a channel, and
else has exactly the effect of R95; the buffer is not written. -/
def Obligations.TransmitStartsThePlayback : Prop :=
  ∀ s : State, s.pending = none →
    (s.tstate = .busy → exec .transmit s = .next { s with pending := some .transmit }) ∧
    (s.tstate = .idle → s.chanValid = false → exec .transmit s = .refused .noChannel) ∧
    (s.tstate = .idle → s.chanValid = true →
      exec .transmit s = .next
        { s with
          cursor := 0
          tstate := .busy
          pstate := .playing
          plen := s.cfg.frameLen
          ppos := 0
          pchan := s.chan
          events := s.events ++ [.startPlayback s.cfg.frameLen s.chan] })

/-- R96 (D12), R142: UPDATE and TRANSMIT are held while Busy with no other change; the held one has no enabled step
while Busy, and takes its step when scheduled while Idle (the schedule is the model's, log 7). -/
def Obligations.HoldUntilIdle : Prop :=
  ∀ (s : State) (r : Request) (rest : List Move),
    (s.pending = none → s.tstate = .busy → exec r.instr s = .next { s with pending := some r }) ∧
    (s.pending = some r → s.script = .resume :: rest → s.tstate = .busy → step s = .refused .waitIdle) ∧
    (s.pending = some r → s.script = .resume :: rest → s.tstate = .idle →
      step s = exec r.instr { s with pending := none, script := rest })

/-- R98: ISREADY answers the flag in every state, held request or not and from either context, and changes nothing
(the response bit and the schedule are the model's fields, log 7 and 10). -/
def Obligations.IsReadyReadsTheFlag : Prop :=
  ∀ s : State,
    exec .isready s = .next { s with rsp := some (decide (s.tstate = .idle)) } ∧
    s.ready = decide (s.tstate = .idle) ∧
    (∀ (ctx : Context) (w : Nat) (rest : List Move),
      s.script = .request ctx w :: rest → w < 2 ^ (8 * s.cfg.idLen) →
      step s = .next { s with rsp := some (decide (s.tstate = .idle)), script := rest })

/-- R62 (D9): the reserved opcode is refused in every state, whatever the identifier bits. -/
def Obligations.ReservedOpcodeIsRefused : Prop :=
  ∀ s : State,
    exec .reservedOp3 s = .refused .reservedOpcode ∧
    (∀ (ctx : Context) (w : Nat) (rest : List Move),
      s.script = .request ctx (requestWord s.cfg.idLen 3 w) :: rest → w < 2 ^ (8 * s.cfg.idLen) →
      step s = .refused .reservedOpcode)

/-- R90 (second INIT: decision D17, log 23): INIT takes any handle once, Idle or Busy, and changes nothing else. -/
def Obligations.InitSuppliesTheChannelOnce : Prop :=
  ∀ (s : State) (ch : Chan),
    (s.chanValid = false → exec (.init ch) s = .next { s with chan := ch, chanValid := true }) ∧
    (s.chanValid = true → exec (.init ch) s = .refused .alreadyInitialised)

/-- R19, R133, R160, R162: a second UPDATE or TRANSMIT while one is outstanding, and either of them from the
completion context, is no move (the refusals' names are the model's, log 9 and 19). -/
def Obligations.OneBlockingRequestAtATime : Prop :=
  ∀ (s : State) (r : Request),
    (s.pending ≠ none → exec r.instr s = .refused .requestOutstanding) ∧
    (∀ (w : Nat) (rest : List Move), s.script = .request .completion w :: rest →
      decode s.cfg (.request w) = .ok r.instr → step s = .refused .blockingInCompletionContext)

/-! ## Playback -/

/-- R111, R112 (D23): START_PLAYBACK's effect within its preconditions; outside them it is no call the core makes,
and the model refuses it (log 13). -/
def Obligations.StartPlaybackWithinPreconditions : Prop :=
  ∀ (s : State) (n : Nat) (ch : Chan),
    (n ≤ s.cfg.cap → s.pstate = .stopped → s.tstate = .busy →
      exec (.startPlayback n ch) s = .next
        { s with pstate := .playing, plen := n, ppos := 0, pchan := ch,
                 events := s.events ++ [.startPlayback n ch] }) ∧
    (s.cfg.cap < n ∨ s.pstate = .playing ∨ s.tstate = .idle →
      exec (.startPlayback n ch) s = .refused .startPlaybackNotEnabled)

/-- R113, R114, R31 (D23; that the output is OFF from the last entry on is D18 and log 11): one entry is played,
and with no entry left there is no PLAY_STEP. -/
def Obligations.PlayStepPlaysOneEntry : Prop :=
  ∀ s : State,
    (s.pstate = .playing → s.ppos < s.plen → s.plen ≤ s.cfg.cap →
      exec .playStep s = .next
        { s with
          tx := if s.ppos + 1 = s.plen ∨ Memory.read s.buf s.ppos = 0 then .off else .on
          trace := s.trace ++ [(s.pchan, if Memory.read s.buf s.ppos = 0 then .off else .on)]
          ppos := s.ppos + 1 }) ∧
    (s.pstate = .stopped ∨ s.plen ≤ s.ppos → exec .playStep s = .refused .playStepNotEnabled)

/-- R137, R115, R139 (D13, D23): the completion, due exactly when every entry has been played, sets the flag
Idle and stops the collaborator, and changes nothing else; `plen`, `ppos` and `pchan` are unspecified from then on
(U12, log 5), within R18's ranges. A signal injected while Idle and not due is harmless; early while Busy it has no step (log 12). -/
def Obligations.CompleteReturnsToIdle : Prop :=
  ∀ s : State,
    (s.pstate = .playing → s.ppos = s.plen →
      ∃ t, exec .complete s = .next t ∧
        t = { s with tstate := .idle, pstate := .stopped, events := s.events ++ [.complete],
                     plen := t.plen, ppos := t.ppos, pchan := t.pchan, draws := t.draws } ∧
        t.ppos ≤ t.plen ∧ t.plen ≤ s.cfg.cap) ∧
    (s.tstate = .idle → (s.pstate = .stopped ∨ s.ppos ≠ s.plen) → exec .complete s = .next s) ∧
    (s.tstate = .busy → (s.pstate = .stopped ∨ s.ppos ≠ s.plen) →
      exec .complete s = .refused .completeNotEnabled)

/-- R115 (1): COMPLETE is a move of the collaborator exactly when it is due, and in the state it leaves the
collaborator is Stopped with neither move; PLAY_STEP is a move exactly while an entry is left. -/
def Obligations.CollaboratorMovesOnlyWhenDue : Prop :=
  ∀ s : State,
    (Enabled .complete s ↔ s.pstate = .playing ∧ s.ppos = s.plen) ∧
    (∀ t, takeMove .complete s = .next t → t.pstate = .stopped ∧ ¬ Enabled .complete t ∧ ¬ Enabled .playStep t) ∧
    (s.plen ≤ s.cfg.cap → (Enabled .playStep s ↔ s.pstate = .playing ∧ s.ppos < s.plen)) ∧
    (¬(s.pstate = .playing ∧ s.ppos = s.plen) → takeMove .complete s = .refused .completeNotEnabled)

/-- R117, R113 (the output OFF at the end: R114, decision D18, log 11): the `FRAME_LEN` PLAY_STEPs of a playback
append the levels of the buffer, in order and on its channel, leave the output OFF, and change nothing else. -/
def Obligations.PlaybackEmitsTheBuffer : Prop :=
  ∀ s : State, s.pstate = .playing → s.plen = s.cfg.frameLen → s.ppos = 0 →
    playSteps s.cfg.frameLen s = .next
      { s with
        ppos := s.cfg.frameLen
        tx := .off
        trace := s.trace ++ s.frameRegion.map fun e => (s.pchan, Level.ofByte e) }

/-- R104, R117, R166 (length: decision D7, log 24; levels: D5, log 15; output OFF: D18, log 11): UPDATE, TRANSMIT, a whole playback and its COMPLETE put exactly the frame of the identifier's
code on the channel, and leave the block Idle, dark and with the frame still staged. -/
def Obligations.StagedFrameIsTransmitted : Prop :=
  ∀ (s : State) (id : TransponderId), Memory.wf s.buf → s.tstate = .idle → s.pending = none →
    s.chanValid = true →
    ∃ s₁ s₂ s₃ s₄,
      exec (.update id) s = .next s₁ ∧ exec .transmit s₁ = .next s₂ ∧
      playSteps s.cfg.frameLen s₂ = .next s₃ ∧ exec .complete s₃ = .next s₄ ∧
      s₄.trace = s.trace ++ (frame s.cfg (codeOf id.b5)).map (fun e => (s.chan, Level.ofByte e)) ∧
      s₄.frameRegion = frame s.cfg (codeOf id.b5) ∧
      s₄.tstate = .idle ∧ s₄.pstate = .stopped ∧ s₄.tx = .off ∧ s₄.cursor = 0 ∧
      s₁.ready = true ∧ s₂.ready = false ∧ s₃.ready = false ∧ s₄.ready = true

/-- R116, R126, R96 (output OFF: decision D18, log 11; release of the held request: log 8): if the collaborator makes good on the playback in flight, the flag returns to Idle with the
buffer, the channel and the held request as they were, so that a held request can take its step. -/
def Obligations.FinishedPlaybackReleasesTheHold : Prop :=
  ∀ s : State, s.Inv → s.tstate = .busy →
    ∃ t, finishPlayback s = .next t ∧ t.tstate = .idle ∧ t.pstate = .stopped ∧ t.tx = .off ∧
      t.buf = s.buf ∧ t.cursor = s.cursor ∧ t.chan = s.chan ∧ t.chanValid = s.chanValid ∧
      t.pending = s.pending ∧
      t.trace = s.trace ++ ((s.frameRegion.drop s.ppos).map fun e => (s.pchan, Level.ofByte e)) ∧
      ∀ r, s.pending = some r → ∃ u, fetchHeld t = .ok (r.instr, u) ∧ u.pending = none ∧
        ∃ v, exec r.instr u = .next v

/-! ## Progress, under the named assumption of R116 -/

/-- R116, R115, R126: under `PlaybackCompletes` every playback in flight takes its PLAY_STEPs to the last entry and
then its COMPLETE, after which the block is ready, unless a RESET ends it. -/
def Obligations.EveryPlaybackCompletes : Prop :=
  ∀ r : Run, (r.state 0).Inv → r.PlaybackCompletes → ∀ n, (r.state n).pstate = .playing →
    ∃ k, n ≤ k ∧ (r.state (k + 1)).ready = true ∧ (r.state (k + 1)).pstate = .stopped ∧
      ((r.move k = .complete ∧ (r.state k).ppos = (r.state k).plen) ∨ r.move k = .reset)

/-- R96, R116, R166: under `PlaybackCompletes`, and a core that takes the step it has once the hold is lifted (log 8),
every held request is executed, unless a RESET drops it. -/
def Obligations.EveryHeldRequestRuns : Prop :=
  ∀ r : Run, (r.state 0).Inv → r.PlaybackCompletes → r.HeldProceeds →
    ∀ n q, (r.state n).pending = some q →
      ∃ k, n ≤ k ∧ (r.state k).pending = some q ∧ (r.state (k + 1)).pending = none ∧
        ((r.move k = .resume ∧ (r.state k).tstate = .idle ∧
            exec q.instr (r.state k).releaseHold = .next (r.state (k + 1))) ∨ r.move k = .reset)

/-- R164, R166: under the same assumptions a run in which no more blocking requests come reaches a state with nothing
held, in flight or pending. -/
def Obligations.RunReachesAFinalState : Prop :=
  ∀ r : Run, (r.state 0).Inv → r.PlaybackCompletes → r.HeldProceeds →
    ∀ n, (∀ k, n ≤ k → ¬ Blocks (r.state k).cfg (r.move k)) →
      ∃ k, n ≤ k ∧ (r.state k).pending = none ∧ (r.state k).pstate = .stopped ∧ (r.state k).tstate = .idle

/-! ## Reset and configuration -/

/-- R145, R146, R148, R26 (D15, D18): RESET, from any state, over anything held or in flight. `chan`, `plen`, `ppos`
and `pchan` are unspecified (log 5), within R18's ranges; parameters and schedule stay (log 21). -/
def Obligations.ResetFromAnyState : Prop :=
  ∀ s : State, ∃ t, exec .reset s = .next t ∧
    (∀ i, Memory.read t.buf i = 0) ∧ t.tstate = .idle ∧ t.cursor = 0 ∧ t.chanValid = false ∧
    t.pstate = .stopped ∧ t.tx = .off ∧ t.pending = none ∧ t.trace = [] ∧ t.events = [] ∧
    t.ready = true ∧ t.ppos ≤ t.plen ∧ t.plen ≤ s.cfg.cap ∧ t.cfg = s.cfg ∧ t.script = s.script

/-- R26: the state right after process start, in every configuration; the open one of `State.reset` is one of
them. -/
def Obligations.ProcessStart : Prop :=
  State.reset = State.resetWith Config.device ∧
  ∀ c : Config,
    (∀ i, Memory.read (State.resetWith c).buf i = 0) ∧ (State.resetWith c).tstate = .idle ∧
    (State.resetWith c).cursor = 0 ∧ (State.resetWith c).chanValid = false ∧
    (State.resetWith c).pstate = .stopped ∧ (State.resetWith c).tx = .off ∧
    (State.resetWith c).pending = none ∧ (State.resetWith c).trace = [] ∧
    (State.resetWith c).ready = true ∧ (State.resetWith c).cfg = c

/-- R6 (strict fit: decision D4), R142 (that `boot` alone refuses: log 22): a machine is built for exactly the well-formed configurations, and an ill-formed one
is refused before any run. -/
def Obligations.OnlyWellFormedConfigurationsBoot : Prop :=
  ∀ p : Params,
    (1 ≤ p.p0 → p.p0 < p.p1 → 1 ≤ p.onMark.toNat → 6 ≤ p.idLen → 3 * p.p0 + 6 * p.p1 < p.frameLen →
      p.frameLen ≤ p.cap → ∃ c : Config, c.toParams = p ∧ boot p = .next (State.resetWith c)) ∧
    ((p.p0 < 1 ∨ p.p1 ≤ p.p0 ∨ p.onMark = 0 ∨ p.idLen < 6 ∨ p.frameLen ≤ 3 * p.p0 + 6 * p.p1 ∨
      p.cap < p.frameLen) → boot p = .refused .illFormedConfiguration)

/-! ## The step -/

/-- R41, R131, R115 (the schedule is the model's, log 7): a step is the next move's operation, executed on the state
without that move; with no move left nothing changes. -/
def Obligations.StepRunsTheNextMove : Prop :=
  ∀ (s : State) (rest : List Move),
    (∀ (ctx : Context) (w : Nat) (i : Instr), s.script = .request ctx w :: rest →
      decode s.cfg (.request w) = .ok i → (ctx = .caller ∨ i = .isready ∨ i = .reservedOp3) →
      step s = exec i { s with script := rest }) ∧
    (∀ ch, s.script = .config ch :: rest → s.cfg.chanType.has ch = true →
      step s = exec (.init ch) { s with script := rest }) ∧
    (s.script = .reset :: rest → step s = exec .reset { s with script := rest }) ∧
    (s.script = .playStep :: rest → step s = exec .playStep { s with script := rest }) ∧
    (s.script = .complete :: rest → s.pstate = .playing → s.ppos = s.plen →
      step s = exec .complete { s with script := rest }) ∧
    (s.script = [] → step s = .next s)

/-- R60, R61 (log 2 and 7): a word of the opcode table placed as the next move is the operation the next step
executes, on the state as it was but for the port's width, which is the table's; a state with that port is as it
was. -/
def Obligations.FetchWordIsRunNext : Prop :=
  ∀ (s : State) (nbits w : Nat) (i : Instr), decodeTableWord nbits w = some i →
    step (s.withFetchWord nbits w) = exec i s.withTablePort ∧
    (s.cfg.idLen = 6 → s.withTablePort = s)

/-- R10, R148: no step changes the configuration. -/
def Obligations.StepKeepsTheConfiguration : Prop :=
  ∀ s t : State, step s = .next t → t.cfg = s.cfg

/-- The canonical form in which the model holds the buffer of R11 and R30 is the model's own choice (log 17): every
step keeps it. -/
def Obligations.StepKeepsTheBufferCanonical : Prop :=
  ∀ s t : State, Memory.wf s.buf → step s = .next t → Memory.wf t.buf

/-- R25, R18, R26: the invariants hold after process start in every configuration, and after a RESET of any
state. -/
def Obligations.InvariantsHoldAfterReset : Prop :=
  (∀ c : Config, (State.resetWith c).Inv ∧ (State.resetWith c).TraceOfFrames) ∧
  (∀ s t : State, exec .reset s = .next t → t.Inv ∧ t.TraceOfFrames)

/-- R25, R18, R114, R119: every step of every agent keeps the invariants. -/
def Obligations.StepKeepsTheInvariants : Prop :=
  ∀ s t : State, s.Inv → step s = .next t → t.Inv

/-- R115 (1), R119, R166: the output history stays a sequence of whole frames (or of `FRAME_LEN` OFF slots), one per
completed playback, and the part of the one in flight. -/
def Obligations.StepKeepsTheTraceOfFrames : Prop :=
  ∀ s t : State, s.Inv → s.TraceOfFrames → step s = .next t → t.TraceOfFrames

/-- R33, R104, R125, R128: the two faults are unreachable by the sanctioned moves. -/
def Obligations.StepNeverFaults : Prop :=
  ∀ (s : State) (f : Fault), s.Inv → step s ≠ .fault f

/-- R25 (I-1), R104, R155: in a state that is Busy no step but RESET changes the buffer. -/
def Obligations.BufferIsNotWrittenWhileBusy : Prop :=
  ∀ s t : State, s.tstate = .busy → step s = .next t → t.buf = s.buf ∨ s.script.head? = some .reset

/-- R103, R92: no operation but UPDATE's ENCODE and RESET changes the buffer. -/
def Obligations.OnlyEncodeAndResetChangeTheBuffer : Prop :=
  ∀ (i : Instr) (s t : State), exec i s = .next t →
    t.buf = s.buf ∨ i = .reset ∨ ∃ id, i = .update id ∨ i = .encode id

/-- R12, R100: the flag becomes Busy only by TRANSMIT, and Idle only by the completion of a playback whose every entry
has been played, or by RESET. -/
def Obligations.WhoWritesTheFlag : Prop :=
  ∀ s t : State, step s = .next t →
    (s.tstate = .idle → t.tstate = .busy →
      s.chanValid = true ∧ ∃ m u, s.script.head? = some m ∧ fetch m s.popMove = .ok (.transmit, u)) ∧
    (s.tstate = .busy → t.tstate = .idle →
      s.script.head? = some .reset ∨
        (s.script.head? = some .complete ∧ s.pstate = .playing ∧ s.ppos = s.plen))

/-- R90, R119: once supplied the channel stays until a RESET. -/
def Obligations.ChannelIsFixedOnceSupplied : Prop :=
  ∀ s t : State, s.chanValid = true → step s = .next t →
    (t.chan = s.chan ∧ t.chanValid = true) ∨ s.script.head? = some .reset

/-- R25 (I-4), R166, R117 (levels: decision D5, log 15): every step keeps a state what its history makes it: the frame
region is the frame of the most recent UPDATE's code, all zero before the first, and the output history is one
emission per completed playback, of the code staged before it, then the one in flight. -/
def Obligations.StepFollowsTheHistory : Prop :=
  ∀ (s t : State) (h : History), s.Inv → s.TraceOfFrames → s.Follows h → step s = .next t →
    t.Follows (h.next s)

/-- R25 (I-2 to I-6), R166: the invariants hold of every state a run reaches from process start, in every configuration
and for every schedule, and the frame region is that of the most recent UPDATE. -/
def Obligations.ReachableStatesFollowTheirHistory : Prop :=
  ∀ (c : Config) (h : History) (s : State), Reachable c h s →
    s.cfg = c ∧ s.Inv ∧ s.TraceOfFrames ∧ s.Follows h ∧ s.frameRegion = stagedFrame c h.staged

/-- R164, R166 (output OFF: decision D18, log 11): a step into a final state leaves the block ready and dark, with every
start completed and a history of whole emissions only. -/
def Obligations.FinalStateOwesNothing : Prop :=
  ∀ s t : State, s.Inv → s.TraceOfFrames → step s = .next t → t.Final →
    t.ready = true ∧ t.tx = .off ∧ starts t.events = completions t.events ∧
      ∃ fs : List (List Level), fs.length = completions t.events ∧ (∀ f ∈ fs, IsEmission t.cfg f) ∧
        t.trace = fs.flatten.map fun l => (t.chan, l)

/-- R164 (decision D24): the run of a script from process start records no fault; one that records no refusal makes
every move, and ends final iff nothing is held, in flight or pending; one that records a refusal is not final. -/
def Obligations.EndOfARun : Prop :=
  ∀ (c : Config) (script : List Move),
    (∀ f, runScript { State.resetWith c with script := script } ≠ .fault f) ∧
    (∀ t, runScript { State.resetWith c with script := script } = .next t →
      t.script = [] ∧
      ((runScript { State.resetWith c with script := script }).Final ↔
        t.pending = none ∧ t.pstate = .stopped ∧ t.tstate = .idle)) ∧
    (∀ r, runScript { State.resetWith c with script := script } = .refused r →
      ¬ (runScript { State.resetWith c with script := script }).Final)
end

