-- ==== Sys2Proof/Laws/Memory.lean ====
section
/-! SUPPORT. The laws of the buffer: read after write, the canonical form, and extensionality. -/

namespace Sys2Proof.Machine

@[simp] theorem Memory.read_nil (a : Nat) : Memory.read [] a = 0 := rfl

theorem Memory.wf_nil : Memory.wf [] := ⟨List.Pairwise.nil, by simp⟩

/-- Every index a write lists was listed before or is the one written. -/
theorem Memory.mem_write {m : Memory} {a : Nat} {v : Byte} {p : Host.Cell}
    (h : p ∈ Memory.write m a v) : (p = (a, v) ∧ v ≠ 0) ∨ p ∈ m := by
  induction m with
  | nil =>
    simp only [Memory.write] at h
    split at h
    · simp at h
    · simp_all
  | cons q m ih =>
    obtain ⟨b, w⟩ := q
    simp only [Memory.write] at h
    split at h
    · split at h
      · exact .inr h
      · rcases List.mem_cons.mp h with h | h
        · exact .inl ⟨h, ‹_›⟩
        · exact .inr h
    · split at h
      · split at h
        · exact .inr (List.mem_cons_of_mem _ h)
        · rcases List.mem_cons.mp h with h | h
          · exact .inl ⟨h, ‹_›⟩
          · exact .inr (List.mem_cons_of_mem _ h)
      · rcases List.mem_cons.mp h with h | h
        · exact .inr (h ▸ List.mem_cons_self ..)
        · exact (ih h).imp id (List.mem_cons_of_mem _)

/-- A write keeps the canonical form. -/
theorem Memory.wf_write {m : Memory} (h : Memory.wf m) (a : Nat) (v : Byte) :
    Memory.wf (Memory.write m a v) := by
  refine ⟨?_, fun p hp => ?_⟩
  · induction m with
    | nil =>
      simp only [Memory.write]
      split <;> simp
    | cons q m ih =>
      obtain ⟨b, w⟩ := q
      have hs := List.pairwise_cons.mp h.1
      have hm : Memory.wf m := ⟨hs.2, fun p hp => h.2 p (List.mem_cons_of_mem _ hp)⟩
      simp only [Memory.write]
      split
      · split
        · exact h.1
        · refine List.pairwise_cons.mpr ⟨fun p hp => ?_, h.1⟩
          rcases List.mem_cons.mp hp with rfl | hp
          · assumption
          · exact Nat.lt_trans (by assumption) (hs.1 p hp)
      · split
        · subst a
          split
          · exact hs.2
          · exact List.pairwise_cons.mpr ⟨hs.1, hs.2⟩
        · refine List.pairwise_cons.mpr ⟨fun p hp => ?_, ih hm⟩
          rcases Memory.mem_write hp with ⟨rfl, -⟩ | hp
          · dsimp only; omega
          · exact hs.1 p hp
  · rcases Memory.mem_write hp with ⟨rfl, hv⟩ | hp
    · exact hv
    · exact h.2 p hp

/-- Below every listed index the buffer reads 0. -/
theorem Memory.read_eq_zero {m : Memory} {a : Nat} (h : ∀ p ∈ m, a ≠ p.1) : Memory.read m a = 0 := by
  induction m with
  | nil => rfl
  | cons q m ih =>
    obtain ⟨b, w⟩ := q
    simp only [Memory.read]
    rw [if_neg (h (b, w) (List.mem_cons_self ..))]
    exact ih fun p hp => h p (List.mem_cons_of_mem _ hp)

/-- A write changes the entry at its index and no other. -/
theorem Memory.read_write {m : Memory} (h : Memory.wf m) (a b : Nat) (v : Byte) :
    Memory.read (Memory.write m a v) b = if b = a then v else Memory.read m b := by
  induction m with
  | nil =>
    simp only [Memory.write]
    split <;> split <;> simp_all [Memory.read]
  | cons q m ih =>
    obtain ⟨c, w⟩ := q
    have hs := List.pairwise_cons.mp h.1
    have hm : Memory.wf m := ⟨hs.2, fun p hp => h.2 p (List.mem_cons_of_mem _ hp)⟩
    have above : ∀ x, x ≤ c → Memory.read m x = 0 := fun x hx =>
      Memory.read_eq_zero fun p hp => by
        have h1 := hs.1 p hp
        dsimp only at h1
        omega
    simp only [Memory.write]
    split
    · split
      · subst v
        split
        · subst b
          rw [Memory.read, if_neg (by omega), above a (by omega)]
        · rfl
      · simp [Memory.read]
    · split
      · subst c
        split
        · subst v
          by_cases hb : b = a
          · subst hb; simp [above]
          · simp [Memory.read, hb]
        · by_cases hb : b = a <;> simp [Memory.read, hb]
      · simp only [Memory.read, ih hm]
        by_cases hb : b = c
        · subst hb; simp [Ne.symm ‹¬a = b›]
        · simp [hb]

theorem Memory.read_write_same {m : Memory} (h : Memory.wf m) (a : Nat) (v : Byte) :
    Memory.read (Memory.write m a v) a = v := by simp [Memory.read_write h]

theorem Memory.read_write_other {m : Memory} (h : Memory.wf m) {a b : Nat} (hb : b ≠ a) (v : Byte) :
    Memory.read (Memory.write m a v) b = Memory.read m b := by simp [Memory.read_write h, hb]

/-- Two canonical buffers that read the same everywhere are the same list. -/
theorem Memory.ext {m n : Memory} (hm : Memory.wf m) (hn : Memory.wf n)
    (h : ∀ a, Memory.read m a = Memory.read n a) : m = n := by
  induction m generalizing n with
  | nil =>
    cases n with
    | nil => rfl
    | cons q n =>
      have := h q.1
      simp only [Memory.read, if_true] at this
      exact absurd this.symm (hn.2 q (List.mem_cons_self ..))
  | cons p m ih =>
    have sm := List.pairwise_cons.mp hm.1
    have wm : Memory.wf m := ⟨sm.2, fun q hq => hm.2 q (List.mem_cons_of_mem _ hq)⟩
    cases n with
    | nil =>
      have := h p.1
      simp only [Memory.read, if_true] at this
      exact absurd this (hm.2 p (List.mem_cons_self ..))
    | cons q n =>
      have sn := List.pairwise_cons.mp hn.1
      have wn : Memory.wf n := ⟨sn.2, fun r hr => hn.2 r (List.mem_cons_of_mem _ hr)⟩
      obtain ⟨a, v⟩ := p
      obtain ⟨b, w⟩ := q
      have low : ∀ (l : Memory) x y, (∀ r ∈ l, x < r.1) → y ≤ x → Memory.read l y = 0 :=
        fun l x y hl hy => Memory.read_eq_zero fun r hr => by have := hl r hr; omega
      have hab : a = b := by
        rcases Nat.lt_trichotomy a b with hlt | heq | hgt
        · have := h a
          rw [Memory.read, if_pos rfl, Memory.read, if_neg (by omega), low n b a sn.1 (by omega)] at this
          exact absurd this (hm.2 (a, v) (List.mem_cons_self ..))
        · exact heq
        · have := h b
          rw [Memory.read, if_neg (by omega), low m a b sm.1 (by omega), Memory.read, if_pos rfl] at this
          exact absurd this.symm (hn.2 (b, w) (List.mem_cons_self ..))
      subst hab
      have hvw : v = w := by simpa [Memory.read] using h a
      subst hvw
      rw [ih wm wn fun x => ?_]
      by_cases hx : x = a
      · subst hx; rw [low m x x sm.1 (by omega), low n x x sn.1 (by omega)]
      · simpa [Memory.read, hx] using h x

end Sys2Proof.Machine
end

