-- ==== Sys2Proof/Laws/State.lean ====
section
/-! SUPPORT. One lemma per field per register operation, so that no proof unfolds a record update. -/

namespace Sys2Proof.Machine

variable (s : State)

@[simp] theorem State.storeByte_cfg (addr : Nat) (v : Byte) : (s.storeByte addr v).cfg = s.cfg := rfl
@[simp] theorem State.storeByte_buf (addr : Nat) (v : Byte) : (s.storeByte addr v).buf = Memory.write s.buf addr v :=
    rfl
@[simp] theorem State.storeByte_tstate (addr : Nat) (v : Byte) : (s.storeByte addr v).tstate = s.tstate := rfl
@[simp] theorem State.storeByte_cursor (addr : Nat) (v : Byte) : (s.storeByte addr v).cursor = s.cursor := rfl
@[simp] theorem State.storeByte_chan (addr : Nat) (v : Byte) : (s.storeByte addr v).chan = s.chan := rfl
@[simp] theorem State.storeByte_chanValid (addr : Nat) (v : Byte) : (s.storeByte addr v).chanValid = s.chanValid :=
    rfl
@[simp] theorem State.storeByte_pstate (addr : Nat) (v : Byte) : (s.storeByte addr v).pstate = s.pstate := rfl
@[simp] theorem State.storeByte_plen (addr : Nat) (v : Byte) : (s.storeByte addr v).plen = s.plen := rfl
@[simp] theorem State.storeByte_ppos (addr : Nat) (v : Byte) : (s.storeByte addr v).ppos = s.ppos := rfl
@[simp] theorem State.storeByte_pchan (addr : Nat) (v : Byte) : (s.storeByte addr v).pchan = s.pchan := rfl
@[simp] theorem State.storeByte_tx (addr : Nat) (v : Byte) : (s.storeByte addr v).tx = s.tx := rfl
@[simp] theorem State.storeByte_pending (addr : Nat) (v : Byte) : (s.storeByte addr v).pending = s.pending :=
    rfl
@[simp] theorem State.storeByte_trace (addr : Nat) (v : Byte) : (s.storeByte addr v).trace = s.trace := rfl
@[simp] theorem State.storeByte_events (addr : Nat) (v : Byte) : (s.storeByte addr v).events = s.events := rfl
@[simp] theorem State.storeByte_rsp (addr : Nat) (v : Byte) : (s.storeByte addr v).rsp = s.rsp := rfl
@[simp] theorem State.storeByte_draws (addr : Nat) (v : Byte) : (s.storeByte addr v).draws = s.draws := rfl
@[simp] theorem State.storeByte_script (addr : Nat) (v : Byte) : (s.storeByte addr v).script = s.script := rfl

@[simp] theorem State.setCursor_cfg (n : Nat) : (s.setCursor n).cfg = s.cfg := rfl
@[simp] theorem State.setCursor_buf (n : Nat) : (s.setCursor n).buf = s.buf := rfl
@[simp] theorem State.setCursor_tstate (n : Nat) : (s.setCursor n).tstate = s.tstate := rfl
@[simp] theorem State.setCursor_cursor (n : Nat) : (s.setCursor n).cursor = n := rfl
@[simp] theorem State.setCursor_chan (n : Nat) : (s.setCursor n).chan = s.chan := rfl
@[simp] theorem State.setCursor_chanValid (n : Nat) : (s.setCursor n).chanValid = s.chanValid := rfl
@[simp] theorem State.setCursor_pstate (n : Nat) : (s.setCursor n).pstate = s.pstate := rfl
@[simp] theorem State.setCursor_plen (n : Nat) : (s.setCursor n).plen = s.plen := rfl
@[simp] theorem State.setCursor_ppos (n : Nat) : (s.setCursor n).ppos = s.ppos := rfl
@[simp] theorem State.setCursor_pchan (n : Nat) : (s.setCursor n).pchan = s.pchan := rfl
@[simp] theorem State.setCursor_tx (n : Nat) : (s.setCursor n).tx = s.tx := rfl
@[simp] theorem State.setCursor_pending (n : Nat) : (s.setCursor n).pending = s.pending := rfl
@[simp] theorem State.setCursor_trace (n : Nat) : (s.setCursor n).trace = s.trace := rfl
@[simp] theorem State.setCursor_events (n : Nat) : (s.setCursor n).events = s.events := rfl
@[simp] theorem State.setCursor_rsp (n : Nat) : (s.setCursor n).rsp = s.rsp := rfl
@[simp] theorem State.setCursor_draws (n : Nat) : (s.setCursor n).draws = s.draws := rfl
@[simp] theorem State.setCursor_script (n : Nat) : (s.setCursor n).script = s.script := rfl

@[simp] theorem State.hold_cfg (r : Request) : (s.hold r).cfg = s.cfg := rfl
@[simp] theorem State.hold_buf (r : Request) : (s.hold r).buf = s.buf := rfl
@[simp] theorem State.hold_tstate (r : Request) : (s.hold r).tstate = s.tstate := rfl
@[simp] theorem State.hold_cursor (r : Request) : (s.hold r).cursor = s.cursor := rfl
@[simp] theorem State.hold_chan (r : Request) : (s.hold r).chan = s.chan := rfl
@[simp] theorem State.hold_chanValid (r : Request) : (s.hold r).chanValid = s.chanValid := rfl
@[simp] theorem State.hold_pstate (r : Request) : (s.hold r).pstate = s.pstate := rfl
@[simp] theorem State.hold_plen (r : Request) : (s.hold r).plen = s.plen := rfl
@[simp] theorem State.hold_ppos (r : Request) : (s.hold r).ppos = s.ppos := rfl
@[simp] theorem State.hold_pchan (r : Request) : (s.hold r).pchan = s.pchan := rfl
@[simp] theorem State.hold_tx (r : Request) : (s.hold r).tx = s.tx := rfl
@[simp] theorem State.hold_pending (r : Request) : (s.hold r).pending = some r := rfl
@[simp] theorem State.hold_trace (r : Request) : (s.hold r).trace = s.trace := rfl
@[simp] theorem State.hold_events (r : Request) : (s.hold r).events = s.events := rfl
@[simp] theorem State.hold_rsp (r : Request) : (s.hold r).rsp = s.rsp := rfl
@[simp] theorem State.hold_draws (r : Request) : (s.hold r).draws = s.draws := rfl
@[simp] theorem State.hold_script (r : Request) : (s.hold r).script = s.script := rfl

@[simp] theorem State.answer_cfg (b : Bool) : (s.answer b).cfg = s.cfg := rfl
@[simp] theorem State.answer_buf (b : Bool) : (s.answer b).buf = s.buf := rfl
@[simp] theorem State.answer_tstate (b : Bool) : (s.answer b).tstate = s.tstate := rfl
@[simp] theorem State.answer_cursor (b : Bool) : (s.answer b).cursor = s.cursor := rfl
@[simp] theorem State.answer_chan (b : Bool) : (s.answer b).chan = s.chan := rfl
@[simp] theorem State.answer_chanValid (b : Bool) : (s.answer b).chanValid = s.chanValid := rfl
@[simp] theorem State.answer_pstate (b : Bool) : (s.answer b).pstate = s.pstate := rfl
@[simp] theorem State.answer_plen (b : Bool) : (s.answer b).plen = s.plen := rfl
@[simp] theorem State.answer_ppos (b : Bool) : (s.answer b).ppos = s.ppos := rfl
@[simp] theorem State.answer_pchan (b : Bool) : (s.answer b).pchan = s.pchan := rfl
@[simp] theorem State.answer_tx (b : Bool) : (s.answer b).tx = s.tx := rfl
@[simp] theorem State.answer_pending (b : Bool) : (s.answer b).pending = s.pending := rfl
@[simp] theorem State.answer_trace (b : Bool) : (s.answer b).trace = s.trace := rfl
@[simp] theorem State.answer_events (b : Bool) : (s.answer b).events = s.events := rfl
@[simp] theorem State.answer_rsp (b : Bool) : (s.answer b).rsp = some b := rfl
@[simp] theorem State.answer_draws (b : Bool) : (s.answer b).draws = s.draws := rfl
@[simp] theorem State.answer_script (b : Bool) : (s.answer b).script = s.script := rfl

@[simp] theorem State.supplyChannel_cfg (ch : Chan) : (s.supplyChannel ch).cfg = s.cfg := rfl
@[simp] theorem State.supplyChannel_buf (ch : Chan) : (s.supplyChannel ch).buf = s.buf := rfl
@[simp] theorem State.supplyChannel_tstate (ch : Chan) : (s.supplyChannel ch).tstate = s.tstate := rfl
@[simp] theorem State.supplyChannel_cursor (ch : Chan) : (s.supplyChannel ch).cursor = s.cursor := rfl
@[simp] theorem State.supplyChannel_chan (ch : Chan) : (s.supplyChannel ch).chan = ch := rfl
@[simp] theorem State.supplyChannel_chanValid (ch : Chan) : (s.supplyChannel ch).chanValid = true := rfl
@[simp] theorem State.supplyChannel_pstate (ch : Chan) : (s.supplyChannel ch).pstate = s.pstate := rfl
@[simp] theorem State.supplyChannel_plen (ch : Chan) : (s.supplyChannel ch).plen = s.plen := rfl
@[simp] theorem State.supplyChannel_ppos (ch : Chan) : (s.supplyChannel ch).ppos = s.ppos := rfl
@[simp] theorem State.supplyChannel_pchan (ch : Chan) : (s.supplyChannel ch).pchan = s.pchan := rfl
@[simp] theorem State.supplyChannel_tx (ch : Chan) : (s.supplyChannel ch).tx = s.tx := rfl
@[simp] theorem State.supplyChannel_pending (ch : Chan) : (s.supplyChannel ch).pending = s.pending := rfl
@[simp] theorem State.supplyChannel_trace (ch : Chan) : (s.supplyChannel ch).trace = s.trace := rfl
@[simp] theorem State.supplyChannel_events (ch : Chan) : (s.supplyChannel ch).events = s.events := rfl
@[simp] theorem State.supplyChannel_rsp (ch : Chan) : (s.supplyChannel ch).rsp = s.rsp := rfl
@[simp] theorem State.supplyChannel_draws (ch : Chan) : (s.supplyChannel ch).draws = s.draws := rfl
@[simp] theorem State.supplyChannel_script (ch : Chan) : (s.supplyChannel ch).script = s.script := rfl

@[simp] theorem State.setBusy_cfg : s.setBusy.cfg = s.cfg := rfl
@[simp] theorem State.setBusy_buf : s.setBusy.buf = s.buf := rfl
@[simp] theorem State.setBusy_tstate : s.setBusy.tstate = .busy := rfl
@[simp] theorem State.setBusy_cursor : s.setBusy.cursor = s.cursor := rfl
@[simp] theorem State.setBusy_chan : s.setBusy.chan = s.chan := rfl
@[simp] theorem State.setBusy_chanValid : s.setBusy.chanValid = s.chanValid := rfl
@[simp] theorem State.setBusy_pstate : s.setBusy.pstate = s.pstate := rfl
@[simp] theorem State.setBusy_plen : s.setBusy.plen = s.plen := rfl
@[simp] theorem State.setBusy_ppos : s.setBusy.ppos = s.ppos := rfl
@[simp] theorem State.setBusy_pchan : s.setBusy.pchan = s.pchan := rfl
@[simp] theorem State.setBusy_tx : s.setBusy.tx = s.tx := rfl
@[simp] theorem State.setBusy_pending : s.setBusy.pending = s.pending := rfl
@[simp] theorem State.setBusy_trace : s.setBusy.trace = s.trace := rfl
@[simp] theorem State.setBusy_events : s.setBusy.events = s.events := rfl
@[simp] theorem State.setBusy_rsp : s.setBusy.rsp = s.rsp := rfl
@[simp] theorem State.setBusy_draws : s.setBusy.draws = s.draws := rfl
@[simp] theorem State.setBusy_script : s.setBusy.script = s.script := rfl

@[simp] theorem State.startPlayback_cfg (n : Nat) (ch : Chan) : (s.startPlayback n ch).cfg = s.cfg := rfl
@[simp] theorem State.startPlayback_buf (n : Nat) (ch : Chan) : (s.startPlayback n ch).buf = s.buf := rfl
@[simp] theorem State.startPlayback_tstate (n : Nat) (ch : Chan) : (s.startPlayback n ch).tstate = s.tstate :=
    rfl
@[simp] theorem State.startPlayback_cursor (n : Nat) (ch : Chan) : (s.startPlayback n ch).cursor = s.cursor :=
    rfl
@[simp] theorem State.startPlayback_chan (n : Nat) (ch : Chan) : (s.startPlayback n ch).chan = s.chan := rfl
@[simp] theorem State.startPlayback_chanValid (n : Nat) (ch : Chan) : (s.startPlayback n ch).chanValid = s.chanValid :=
    rfl
@[simp] theorem State.startPlayback_pstate (n : Nat) (ch : Chan) : (s.startPlayback n ch).pstate = .playing :=
    rfl
@[simp] theorem State.startPlayback_plen (n : Nat) (ch : Chan) : (s.startPlayback n ch).plen = n := rfl
@[simp] theorem State.startPlayback_ppos (n : Nat) (ch : Chan) : (s.startPlayback n ch).ppos = 0 := rfl
@[simp] theorem State.startPlayback_pchan (n : Nat) (ch : Chan) : (s.startPlayback n ch).pchan = ch := rfl
@[simp] theorem State.startPlayback_tx (n : Nat) (ch : Chan) : (s.startPlayback n ch).tx = s.tx := rfl
@[simp] theorem State.startPlayback_pending (n : Nat) (ch : Chan) : (s.startPlayback n ch).pending = s.pending :=
    rfl
@[simp] theorem State.startPlayback_trace (n : Nat) (ch : Chan) : (s.startPlayback n ch).trace = s.trace :=
    rfl
@[simp] theorem State.startPlayback_events (n : Nat) (ch : Chan) : (s.startPlayback n ch).events = s.events ++ [.startPlayback n ch] :=
    rfl
@[simp] theorem State.startPlayback_rsp (n : Nat) (ch : Chan) : (s.startPlayback n ch).rsp = s.rsp := rfl
@[simp] theorem State.startPlayback_draws (n : Nat) (ch : Chan) : (s.startPlayback n ch).draws = s.draws :=
    rfl
@[simp] theorem State.startPlayback_script (n : Nat) (ch : Chan) : (s.startPlayback n ch).script = s.script :=
    rfl

@[simp] theorem State.playEntry_cfg (l : Level) : (s.playEntry l).cfg = s.cfg := rfl
@[simp] theorem State.playEntry_buf (l : Level) : (s.playEntry l).buf = s.buf := rfl
@[simp] theorem State.playEntry_tstate (l : Level) : (s.playEntry l).tstate = s.tstate := rfl
@[simp] theorem State.playEntry_cursor (l : Level) : (s.playEntry l).cursor = s.cursor := rfl
@[simp] theorem State.playEntry_chan (l : Level) : (s.playEntry l).chan = s.chan := rfl
@[simp] theorem State.playEntry_chanValid (l : Level) : (s.playEntry l).chanValid = s.chanValid := rfl
@[simp] theorem State.playEntry_pstate (l : Level) : (s.playEntry l).pstate = s.pstate := rfl
@[simp] theorem State.playEntry_plen (l : Level) : (s.playEntry l).plen = s.plen := rfl
@[simp] theorem State.playEntry_ppos (l : Level) : (s.playEntry l).ppos = s.ppos + 1 := rfl
@[simp] theorem State.playEntry_pchan (l : Level) : (s.playEntry l).pchan = s.pchan := rfl
@[simp] theorem State.playEntry_tx (l : Level) : (s.playEntry l).tx = if s.ppos + 1 = s.plen then .off else l :=
    rfl
@[simp] theorem State.playEntry_pending (l : Level) : (s.playEntry l).pending = s.pending := rfl
@[simp] theorem State.playEntry_trace (l : Level) : (s.playEntry l).trace = s.trace ++ [(s.pchan, l)] := rfl
@[simp] theorem State.playEntry_events (l : Level) : (s.playEntry l).events = s.events := rfl
@[simp] theorem State.playEntry_rsp (l : Level) : (s.playEntry l).rsp = s.rsp := rfl
@[simp] theorem State.playEntry_draws (l : Level) : (s.playEntry l).draws = s.draws := rfl
@[simp] theorem State.playEntry_script (l : Level) : (s.playEntry l).script = s.script := rfl

@[simp] theorem State.forgetPlayback_cfg : s.forgetPlayback.cfg = s.cfg := rfl
@[simp] theorem State.forgetPlayback_buf : s.forgetPlayback.buf = s.buf := rfl
@[simp] theorem State.forgetPlayback_tstate : s.forgetPlayback.tstate = s.tstate := rfl
@[simp] theorem State.forgetPlayback_cursor : s.forgetPlayback.cursor = s.cursor := rfl
@[simp] theorem State.forgetPlayback_chan : s.forgetPlayback.chan = s.chan := rfl
@[simp] theorem State.forgetPlayback_chanValid : s.forgetPlayback.chanValid = s.chanValid := rfl
@[simp] theorem State.forgetPlayback_pstate : s.forgetPlayback.pstate = s.pstate := rfl
@[simp] theorem State.forgetPlayback_plen : s.forgetPlayback.plen = Config.freePlen s.draws % (s.cfg.cap + 1) :=
    rfl
@[simp] theorem State.forgetPlayback_ppos : s.forgetPlayback.ppos = Config.freePpos s.draws % (Config.freePlen s.draws % (s.cfg.cap + 1) + 1) :=
    rfl
@[simp] theorem State.forgetPlayback_pchan : s.forgetPlayback.pchan =
    s.cfg.chanType.select (Config.freePchan s.draws) := rfl
@[simp] theorem State.forgetPlayback_tx : s.forgetPlayback.tx = s.tx := rfl
@[simp] theorem State.forgetPlayback_pending : s.forgetPlayback.pending = s.pending := rfl
@[simp] theorem State.forgetPlayback_trace : s.forgetPlayback.trace = s.trace := rfl
@[simp] theorem State.forgetPlayback_events : s.forgetPlayback.events = s.events := rfl
@[simp] theorem State.forgetPlayback_rsp : s.forgetPlayback.rsp = s.rsp := rfl
@[simp] theorem State.forgetPlayback_draws : s.forgetPlayback.draws = s.draws + 1 := rfl
@[simp] theorem State.forgetPlayback_script : s.forgetPlayback.script = s.script := rfl

@[simp] theorem State.takeCompletion_cfg : s.takeCompletion.cfg = s.cfg := rfl
@[simp] theorem State.takeCompletion_buf : s.takeCompletion.buf = s.buf := rfl
@[simp] theorem State.takeCompletion_tstate : s.takeCompletion.tstate = .idle := rfl
@[simp] theorem State.takeCompletion_cursor : s.takeCompletion.cursor = s.cursor := rfl
@[simp] theorem State.takeCompletion_chan : s.takeCompletion.chan = s.chan := rfl
@[simp] theorem State.takeCompletion_chanValid : s.takeCompletion.chanValid = s.chanValid := rfl
@[simp] theorem State.takeCompletion_pstate : s.takeCompletion.pstate = .stopped := rfl
@[simp] theorem State.takeCompletion_plen : s.takeCompletion.plen = s.forgetPlayback.plen := rfl
@[simp] theorem State.takeCompletion_ppos : s.takeCompletion.ppos = s.forgetPlayback.ppos := rfl
@[simp] theorem State.takeCompletion_pchan : s.takeCompletion.pchan = s.forgetPlayback.pchan := rfl
@[simp] theorem State.takeCompletion_tx : s.takeCompletion.tx = s.tx := rfl
@[simp] theorem State.takeCompletion_pending : s.takeCompletion.pending = s.pending := rfl
@[simp] theorem State.takeCompletion_trace : s.takeCompletion.trace = s.trace := rfl
@[simp] theorem State.takeCompletion_events : s.takeCompletion.events = s.events ++ [.complete] := rfl
@[simp] theorem State.takeCompletion_rsp : s.takeCompletion.rsp = s.rsp := rfl
@[simp] theorem State.takeCompletion_draws : s.takeCompletion.draws = s.draws + 1 := rfl
@[simp] theorem State.takeCompletion_script : s.takeCompletion.script = s.script := rfl

@[simp] theorem State.afterReset_cfg : s.afterReset.cfg = s.cfg := rfl
@[simp] theorem State.afterReset_buf : s.afterReset.buf = [] := rfl
@[simp] theorem State.afterReset_tstate : s.afterReset.tstate = .idle := rfl
@[simp] theorem State.afterReset_cursor : s.afterReset.cursor = 0 := rfl
@[simp] theorem State.afterReset_chan : s.afterReset.chan =
    s.cfg.chanType.select (Config.freeChan s.draws) := rfl
@[simp] theorem State.afterReset_chanValid : s.afterReset.chanValid = false := rfl
@[simp] theorem State.afterReset_pstate : s.afterReset.pstate = .stopped := rfl
@[simp] theorem State.afterReset_plen : s.afterReset.plen = s.forgetPlayback.plen := rfl
@[simp] theorem State.afterReset_ppos : s.afterReset.ppos = s.forgetPlayback.ppos := rfl
@[simp] theorem State.afterReset_pchan : s.afterReset.pchan = s.forgetPlayback.pchan := rfl
@[simp] theorem State.afterReset_tx : s.afterReset.tx = .off := rfl
@[simp] theorem State.afterReset_pending : s.afterReset.pending = none := rfl
@[simp] theorem State.afterReset_trace : s.afterReset.trace = [] := rfl
@[simp] theorem State.afterReset_events : s.afterReset.events = [] := rfl
@[simp] theorem State.afterReset_rsp : s.afterReset.rsp = none := rfl
@[simp] theorem State.afterReset_draws : s.afterReset.draws = s.draws + 1 := rfl
@[simp] theorem State.afterReset_script : s.afterReset.script = s.script := rfl

@[simp] theorem State.popMove_cfg : s.popMove.cfg = s.cfg := rfl
@[simp] theorem State.popMove_buf : s.popMove.buf = s.buf := rfl
@[simp] theorem State.popMove_tstate : s.popMove.tstate = s.tstate := rfl
@[simp] theorem State.popMove_cursor : s.popMove.cursor = s.cursor := rfl
@[simp] theorem State.popMove_chan : s.popMove.chan = s.chan := rfl
@[simp] theorem State.popMove_chanValid : s.popMove.chanValid = s.chanValid := rfl
@[simp] theorem State.popMove_pstate : s.popMove.pstate = s.pstate := rfl
@[simp] theorem State.popMove_plen : s.popMove.plen = s.plen := rfl
@[simp] theorem State.popMove_ppos : s.popMove.ppos = s.ppos := rfl
@[simp] theorem State.popMove_pchan : s.popMove.pchan = s.pchan := rfl
@[simp] theorem State.popMove_tx : s.popMove.tx = s.tx := rfl
@[simp] theorem State.popMove_pending : s.popMove.pending = s.pending := rfl
@[simp] theorem State.popMove_trace : s.popMove.trace = s.trace := rfl
@[simp] theorem State.popMove_events : s.popMove.events = s.events := rfl
@[simp] theorem State.popMove_rsp : s.popMove.rsp = s.rsp := rfl
@[simp] theorem State.popMove_draws : s.popMove.draws = s.draws := rfl
@[simp] theorem State.popMove_script : s.popMove.script = s.script.tail := rfl

@[simp] theorem State.releaseHold_cfg : s.releaseHold.cfg = s.cfg := rfl
@[simp] theorem State.releaseHold_buf : s.releaseHold.buf = s.buf := rfl
@[simp] theorem State.releaseHold_tstate : s.releaseHold.tstate = s.tstate := rfl
@[simp] theorem State.releaseHold_cursor : s.releaseHold.cursor = s.cursor := rfl
@[simp] theorem State.releaseHold_chan : s.releaseHold.chan = s.chan := rfl
@[simp] theorem State.releaseHold_chanValid : s.releaseHold.chanValid = s.chanValid := rfl
@[simp] theorem State.releaseHold_pstate : s.releaseHold.pstate = s.pstate := rfl
@[simp] theorem State.releaseHold_plen : s.releaseHold.plen = s.plen := rfl
@[simp] theorem State.releaseHold_ppos : s.releaseHold.ppos = s.ppos := rfl
@[simp] theorem State.releaseHold_pchan : s.releaseHold.pchan = s.pchan := rfl
@[simp] theorem State.releaseHold_tx : s.releaseHold.tx = s.tx := rfl
@[simp] theorem State.releaseHold_pending : s.releaseHold.pending = none := rfl
@[simp] theorem State.releaseHold_trace : s.releaseHold.trace = s.trace := rfl
@[simp] theorem State.releaseHold_events : s.releaseHold.events = s.events := rfl
@[simp] theorem State.releaseHold_rsp : s.releaseHold.rsp = s.rsp := rfl
@[simp] theorem State.releaseHold_draws : s.releaseHold.draws = s.draws := rfl
@[simp] theorem State.releaseHold_script : s.releaseHold.script = s.script := rfl

@[simp] theorem State.withFetchWord_cfg (nbits w : Nat) : (s.withFetchWord nbits w).cfg = s.cfg.withTablePort :=
    rfl
@[simp] theorem State.withFetchWord_buf (nbits w : Nat) : (s.withFetchWord nbits w).buf = s.buf := rfl
@[simp] theorem State.withFetchWord_tstate (nbits w : Nat) : (s.withFetchWord nbits w).tstate = s.tstate :=
    rfl
@[simp] theorem State.withFetchWord_cursor (nbits w : Nat) : (s.withFetchWord nbits w).cursor = s.cursor :=
    rfl
@[simp] theorem State.withFetchWord_chan (nbits w : Nat) : (s.withFetchWord nbits w).chan = s.chan := rfl
@[simp] theorem State.withFetchWord_chanValid (nbits w : Nat) : (s.withFetchWord nbits w).chanValid = s.chanValid :=
    rfl
@[simp] theorem State.withFetchWord_pstate (nbits w : Nat) : (s.withFetchWord nbits w).pstate = s.pstate :=
    rfl
@[simp] theorem State.withFetchWord_plen (nbits w : Nat) : (s.withFetchWord nbits w).plen = s.plen := rfl
@[simp] theorem State.withFetchWord_ppos (nbits w : Nat) : (s.withFetchWord nbits w).ppos = s.ppos := rfl
@[simp] theorem State.withFetchWord_pchan (nbits w : Nat) : (s.withFetchWord nbits w).pchan = s.pchan := rfl
@[simp] theorem State.withFetchWord_tx (nbits w : Nat) : (s.withFetchWord nbits w).tx = s.tx := rfl
@[simp] theorem State.withFetchWord_pending (nbits w : Nat) : (s.withFetchWord nbits w).pending = s.pending :=
    rfl
@[simp] theorem State.withFetchWord_trace (nbits w : Nat) : (s.withFetchWord nbits w).trace = s.trace := rfl
@[simp] theorem State.withFetchWord_events (nbits w : Nat) : (s.withFetchWord nbits w).events = s.events :=
    rfl
@[simp] theorem State.withFetchWord_rsp (nbits w : Nat) : (s.withFetchWord nbits w).rsp = s.rsp := rfl
@[simp] theorem State.withFetchWord_draws (nbits w : Nat) : (s.withFetchWord nbits w).draws = s.draws := rfl
@[simp] theorem State.withFetchWord_script (nbits w : Nat) : (s.withFetchWord nbits w).script = .request .caller (w % 2 ^ nbits) :: s.script :=
    rfl
@[simp] theorem State.resetWith_buf (c : Config) : (State.resetWith c).buf = [] := rfl
@[simp] theorem State.resetWith_cfg (c : Config) : (State.resetWith c).cfg = c := rfl
@[simp] theorem State.resetWith_tstate (c : Config) : (State.resetWith c).tstate = .idle := rfl
@[simp] theorem State.resetWith_pstate (c : Config) : (State.resetWith c).pstate = .stopped := rfl
@[simp] theorem State.resetWith_pending (c : Config) : (State.resetWith c).pending = none := rfl
@[simp] theorem State.resetWith_cursor (c : Config) : (State.resetWith c).cursor = 0 := rfl
@[simp] theorem State.resetWith_chanValid (c : Config) : (State.resetWith c).chanValid = false := rfl
@[simp] theorem State.resetWith_tx (c : Config) : (State.resetWith c).tx = .off := rfl
@[simp] theorem State.resetWith_trace (c : Config) : (State.resetWith c).trace = [] := rfl
@[simp] theorem State.resetWith_events (c : Config) : (State.resetWith c).events = [] := rfl
@[simp] theorem State.resetWith_script (c : Config) : (State.resetWith c).script = [] := rfl
@[simp] theorem State.resetWith_plen (c : Config) : (State.resetWith c).plen = 0 := rfl
@[simp] theorem State.resetWith_ppos (c : Config) : (State.resetWith c).ppos = 0 := rfl

@[simp] theorem State.withTablePort_cfg : s.withTablePort.cfg = s.cfg.withTablePort := rfl
@[simp] theorem State.withTablePort_buf : s.withTablePort.buf = s.buf := rfl
@[simp] theorem State.withTablePort_tstate : s.withTablePort.tstate = s.tstate := rfl
@[simp] theorem State.withTablePort_cursor : s.withTablePort.cursor = s.cursor := rfl
@[simp] theorem State.withTablePort_chan : s.withTablePort.chan = s.chan := rfl
@[simp] theorem State.withTablePort_chanValid : s.withTablePort.chanValid = s.chanValid := rfl
@[simp] theorem State.withTablePort_pstate : s.withTablePort.pstate = s.pstate := rfl
@[simp] theorem State.withTablePort_plen : s.withTablePort.plen = s.plen := rfl
@[simp] theorem State.withTablePort_ppos : s.withTablePort.ppos = s.ppos := rfl
@[simp] theorem State.withTablePort_pchan : s.withTablePort.pchan = s.pchan := rfl
@[simp] theorem State.withTablePort_tx : s.withTablePort.tx = s.tx := rfl
@[simp] theorem State.withTablePort_pending : s.withTablePort.pending = s.pending := rfl
@[simp] theorem State.withTablePort_trace : s.withTablePort.trace = s.trace := rfl
@[simp] theorem State.withTablePort_events : s.withTablePort.events = s.events := rfl
@[simp] theorem State.withTablePort_rsp : s.withTablePort.rsp = s.rsp := rfl
@[simp] theorem State.withTablePort_draws : s.withTablePort.draws = s.draws := rfl
@[simp] theorem State.withTablePort_script : s.withTablePort.script = s.script := rfl

/-- The number a free handle is drawn with selects a value of the type `Chan`. -/
@[simp] theorem ChanType.has_select (c : ChanType) (n : Nat) : c.has (c.select n) = true := by
  cases c with
  | finite last =>
    have hn : n % (last + 1) < last + 1 := Nat.mod_lt n (by omega)
    exact decide_eq_true (by simp only [ChanType.select]; omega)
  | countable => rfl

@[simp] theorem ChanType.has_zero (c : ChanType) : c.has ⟨0⟩ = true := by cases c <;> simp [ChanType.has]

end Sys2Proof.Machine
end

