-- ==== Sys2Proof/Laws/Ops.lean ====
section
/-! SUPPORT. What each shared operation can do, said once: callers cite these and do not unfold the
operation. -/

namespace Sys2Proof.Machine

variable {s t : State}

@[simp] theorem Answer.ofExcept_ok (s : State) : Answer.ofExcept (.ok s) = .next s := rfl

@[simp] theorem Answer.ofExcept_error (f : Fault) : Answer.ofExcept (.error f) = .fault f := rfl

theorem Answer.ofExcept_next {x : Except Fault State} : Answer.ofExcept x = .next t ↔ x = .ok t := by
  cases x <;> simp

theorem memWrite_busy (h : s.tstate = .busy) (a : Nat) (v : Byte) :
    memWrite s a v = .error .bufferWriteWhileBusy := by simp [memWrite, h]

theorem memWrite_idle (h : s.tstate = .idle) {a : Nat} (ha : a < s.cfg.cap) (v : Byte) :
    memWrite s a v = .ok (s.storeByte a v) := by simp [memWrite, h, ha]

theorem memWrite_outOfRange (h : s.tstate = .idle) {a : Nat} (ha : s.cfg.cap ≤ a) (v : Byte) :
    memWrite s a v = .error .bufferIndexOutOfRange := by simp [memWrite, h, Nat.not_lt.mpr ha]

theorem memWrite_ok {a : Nat} {v : Byte} (h : memWrite s a v = .ok t) :
    s.tstate = .idle ∧ a < s.cfg.cap ∧ t = s.storeByte a v := by
  cases hb : s.tstate with
  | busy => rw [memWrite_busy hb] at h; cases h
  | idle =>
    by_cases ha : a < s.cfg.cap
    · rw [memWrite_idle hb ha] at h; cases h; exact ⟨rfl, ha, rfl⟩
    · rw [memWrite_outOfRange hb (Nat.not_lt.mp ha)] at h; cases h

theorem memRead_ok {a : Nat} (ha : a < s.cfg.cap) : memRead s a = .ok (Memory.read s.buf a) := by
  simp [memRead, ha]

/-- The three things the head of UPDATE and TRANSMIT can do (R96, R19). -/
theorem holdUntilIdle_next {r : Request} {body : State → Answer} (h : holdUntilIdle r body s = .next t) :
    s.pending = none ∧
      ((s.tstate = .busy ∧ t = s.hold r) ∨ (s.tstate = .idle ∧ body s = .next t)) := by
  cases hp : s.pending with
  | some q => simp [holdUntilIdle, hp] at h
  | none =>
    cases ht : s.tstate with
    | busy =>
      simp only [holdUntilIdle, hp, ht, Host.Outcome.next.injEq] at h
      exact ⟨rfl, .inl ⟨rfl, h.symm⟩⟩
    | idle => exact ⟨rfl, .inr ⟨rfl, by simpa [holdUntilIdle, hp, ht] using h⟩⟩

theorem holdUntilIdle_idle {r : Request} {body : State → Answer} (hp : s.pending = none)
    (ht : s.tstate = .idle) : holdUntilIdle r body s = body s := by simp [holdUntilIdle, hp, ht]

theorem holdUntilIdle_busy {r : Request} {body : State → Answer} (hp : s.pending = none)
    (ht : s.tstate = .busy) : holdUntilIdle r body s = .next (s.hold r) := by simp [holdUntilIdle, hp, ht]

theorem holdUntilIdle_outstanding {r : Request} {body : State → Answer} (hp : s.pending ≠ none) :
    holdUntilIdle r body s = .refused .requestOutstanding := by
  cases h : s.pending with
  | none => exact absurd h hp
  | some q => simp [holdUntilIdle, h]

end Sys2Proof.Machine
end

