-- ==== Sys2Proof/Laws/Encoder.lean ====
section
/-! SUPPORT. What the encoder's stores do: a run of entries is a fill of the buffer at the cursor. -/

namespace Sys2Proof.Machine

/-- `n` entries from index `a` on, all holding `v`. -/
def fill : Memory → Nat → Nat → Byte → Memory
  | m, _, 0, _ => m
  | m, a, n + 1, v => fill (Memory.write m a v) (a + 1) n v

theorem wf_fill {m : Memory} (h : Memory.wf m) (a n : Nat) (v : Byte) : Memory.wf (fill m a n v) := by
  induction n generalizing m a with
  | zero => exact h
  | succ n ih => exact ih (Memory.wf_write h a v) (a + 1)

theorem read_fill {m : Memory} (h : Memory.wf m) (a n : Nat) (v : Byte) (i : Nat) :
    Memory.read (fill m a n v) i = if a ≤ i ∧ i < a + n then v else Memory.read m i := by
  induction n generalizing m a with
  | zero => rw [fill, if_neg (by omega)]
  | succ n ih =>
    rw [fill, ih (Memory.wf_write h a v), Memory.read_write h]
    by_cases h1 : i = a
    · subst h1; simp
    · by_cases h2 : a + 1 ≤ i ∧ i < a + 1 + n
      · rw [if_pos h2, if_pos (by omega)]
      · rw [if_neg h2, if_neg h1, if_neg (by omega)]

/-- The state after `n` entries `v` have been stored at the cursor. -/
def State.filled (s : State) (n : Nat) (v : Byte) : State :=
  { s with buf := fill s.buf s.cursor n v, cursor := s.cursor + n }

@[simp] theorem State.filled_cfg (s : State) (n : Nat) (v : Byte) : (s.filled n v).cfg = s.cfg := rfl
@[simp] theorem State.filled_tstate (s : State) (n : Nat) (v : Byte) :
    (s.filled n v).tstate = s.tstate := rfl
@[simp] theorem State.filled_cursor (s : State) (n : Nat) (v : Byte) :
    (s.filled n v).cursor = s.cursor + n := rfl
@[simp] theorem State.filled_buf (s : State) (n : Nat) (v : Byte) :
    (s.filled n v).buf = fill s.buf s.cursor n v := rfl

theorem State.filled_zero (s : State) (v : Byte) : s.filled 0 v = s := rfl

theorem storeEntry_idle {s : State} (ht : s.tstate = .idle) (hc : s.cursor < s.cfg.cap) (v : Byte) :
    storeEntry v s = .ok (s.filled 1 v) := by
  rw [storeEntry, memWrite_idle ht hc]; rfl

theorem storeEntry_busy {s : State} (ht : s.tstate = .busy) (v : Byte) :
    storeEntry v s = .error .bufferWriteWhileBusy := by rw [storeEntry, memWrite_busy ht]; rfl

/-- `emit(n, v)` fills `n` entries at the cursor (R72). -/
theorem emit_idle {s : State} (ht : s.tstate = .idle) {n : Nat} (hc : s.cursor + n ≤ s.cfg.cap) (v : Byte) :
    emit n v s = .ok (s.filled n v) := by
  induction n generalizing s with
  | zero => rfl
  | succ n ih =>
    rw [emit, storeEntry_idle ht (by omega)]
    show emit n v (s.filled 1 v) = _
    rw [ih (by simpa using ht) (by simp; omega)]
    simp only [State.filled, fill]
    congr 2
    omega

/-- The padding loop fills zeros up to `FRAME_LEN`, given turns enough (R77). -/
theorem padLoop_idle {s : State} (ht : s.tstate = .idle) {n : Nat} (hn : s.cfg.frameLen ≤ s.cursor + n)
    (hc : s.cfg.frameLen ≤ s.cfg.cap) :
    padLoop n s = .ok (s.filled (s.cfg.frameLen - s.cursor) 0) := by
  induction n generalizing s with
  | zero => rw [padLoop, show s.cfg.frameLen - s.cursor = 0 by omega]; rfl
  | succ n ih =>
    rw [padLoop]
    by_cases h : s.cursor < s.cfg.frameLen
    · rw [if_pos h, storeEntry_idle ht (by omega)]
      show padLoop n (s.filled 1 0) = _
      rw [ih (by simpa using ht) (by simp; omega) (by simpa using hc)]
      obtain ⟨k, hk⟩ : ∃ k, s.cfg.frameLen - s.cursor = k + 1 := ⟨_, (Nat.succ_pred (by omega)).symm⟩
      have hk' : s.cfg.frameLen - (s.cursor + 1) = k := by omega
      simp only [State.filled, hk, hk', fill]
      congr 2
      omega
    · rw [if_neg h, show s.cfg.frameLen - s.cursor = 0 by omega]; rfl

end Sys2Proof.Machine
end

