-- ==== Sys2Proof/Laws/PerInstr.lean ====
section
/-! SUPPORT. Statements made instruction by instruction. PortWidth: the request word that carries a well-formed
operation fits the port's `8*ID_LEN + 2` bits (R60). -/

namespace Sys2Proof.Laws

theorem packBytes_lt (bs : List Byte) : packBytes bs < 2 ^ (8 * bs.length) := by
  induction bs with
  | nil => simp [packBytes]
  | cons b bs ih =>
    have hb : b.toNat < 256 := b.isLt
    have hp : 2 ^ (8 * (bs.length + 1)) = 256 * 2 ^ (8 * bs.length) := by
      rw [Nat.mul_add, Nat.pow_add]; omega
    simp only [packBytes, List.length_cons, hp]
    omega

theorem requestWord_lt {idLen op idField : Nat} (hop : op < 4) (hid : idField < 2 ^ (8 * idLen)) :
    requestWord idLen op idField < 2 ^ (8 * idLen + 2) := by
  have hp : 2 ^ (8 * idLen + 2) = 4 * 2 ^ (8 * idLen) := by rw [Nat.pow_add]; omega
  have hm : op * 2 ^ (8 * idLen) ≤ 3 * 2 ^ (8 * idLen) := Nat.mul_le_mul_right _ (by omega)
  rw [requestWord, hp]
  omega

/-- A well-formed operation's request word, if it has one, fits the port. -/
def PortWidth.Statement (i : Instr) : Prop :=
  ∀ (c : Config) (w : Nat), i.wellFormed c = true → encode c i = some (.request w) → w < 2 ^ c.requestBits

theorem PortWidth.isready : PortWidth.Statement .isready := by
  intro c w _ h
  cases h
  exact requestWord_lt (by omega) (Nat.two_pow_pos _)

theorem PortWidth.update (id : TransponderId) : PortWidth.Statement (.update id) := by
  intro c w hw h
  cases h
  refine requestWord_lt (by omega) ?_
  have hl : id.bytes.length = c.idLen := by
    simp only [Instr.wellFormed, TransponderId.wellFormed, decide_eq_true_eq] at hw
    simp only [TransponderId.bytes, List.length_append, List.length_cons, List.length_nil]
    omega
  exact hl ▸ packBytes_lt id.bytes

theorem PortWidth.transmit : PortWidth.Statement .transmit := by
  intro c w _ h
  cases h
  exact requestWord_lt (by omega) (Nat.two_pow_pos _)

theorem PortWidth.reservedOp3 : PortWidth.Statement .reservedOp3 := by
  intro c w _ h
  cases h
  exact requestWord_lt (by omega) (Nat.two_pow_pos _)

theorem PortWidth.init (ch : Chan) : PortWidth.Statement (.init ch) := by intro c w _ h; cases h

theorem PortWidth.reset : PortWidth.Statement .reset := by intro c w _ h; cases h

theorem PortWidth.encode (id : TransponderId) : PortWidth.Statement (.encode id) := by intro c w _ h; cases h

theorem PortWidth.startPlayback (length : Nat) (ch : Chan) :
    PortWidth.Statement (.startPlayback length ch) := by intro c w _ h; cases h

theorem PortWidth.playStep : PortWidth.Statement .playStep := by intro c w _ h; cases h

theorem PortWidth.complete : PortWidth.Statement .complete := by intro c w _ h; cases h

end Sys2Proof.Laws
end

