-- ==== Sys2Proof/Laws/Step.lean ====
section
/-! SUPPORT. What one step can be: the inversion of `fetch`, `takeMove` and `step`, and of each operation's answer. -/

namespace Sys2Proof.Machine

variable {s t : State}

/-- The decoder reads one of the four request operations from a request word (R61). -/
theorem decodeRequest_ok {n w : Nat} {i : Instr} (h : decodeRequest n w = .ok i) :
    i = .isready ∨ (∃ id, i = .update id) ∨ i = .transmit ∨ i = .reservedOp3 := by
  unfold decodeRequest at h
  repeat' split at h
  all_goals cases h
  all_goals simp

/-- What a fetched port signal is: the decoder's operation, acting on the state as it is. -/
theorem fetchSignal_ok {sig : Signal} {i : Instr} (h : fetchSignal s sig = .ok (i, t)) :
    decode s.cfg sig = .ok i ∧ t = s := by
  unfold fetchSignal at h
  split at h
  · next hd => cases h; exact ⟨hd, rfl⟩
  · cases h

theorem fetchRequest_ok {ctx : Context} {w : Nat} {i : Instr} (h : fetchRequest s ctx w = .ok (i, t)) :
    decodeRequest s.cfg.idLen w = .ok i ∧ t = s ∧ (ctx = .completion → mayBlock i = false) := by
  unfold fetchRequest at h
  split at h
  · next hf =>
    obtain ⟨hd, rfl⟩ := fetchSignal_ok hf
    split at h
    · cases h
    · next hc =>
      cases h
      exact ⟨hd, rfl, fun hx => by simpa [hx] using hc⟩
  · cases h

/-- A fetched operation acts on the state as it is, and is one an agent can make: a request, an event, a
collaborator's step, COMPLETE being due; or it is the held request, released while Idle. -/
theorem fetch_ok {m : Move} {i : Instr} (h : fetch m s = .ok (i, t)) :
    (t = s ∧ m ≠ .resume ∧ (∀ id, i ≠ .encode id) ∧ (∀ n ch, i ≠ .startPlayback n ch) ∧
        (i = .reset ↔ m = .reset) ∧ (i = .playStep ↔ m = .playStep) ∧
        (i = .complete ↔ m = .complete) ∧ (m = .complete → s.pstate = .playing ∧ s.ppos = s.plen) ∧
        (∀ ch, i = .init ch → s.cfg.chanType.has ch = true)) ∨
      (∃ r, m = .resume ∧ s.pending = some r ∧ s.tstate = .idle ∧ i = r.instr ∧ t = s.releaseHold) := by
  cases m with
  | request ctx word =>
    obtain ⟨hd, rfl, -⟩ := fetchRequest_ok h
    left
    obtain rfl | ⟨id, rfl⟩ | rfl | rfl := decodeRequest_ok hd <;> simp
  | config ch =>
    obtain ⟨hd, rfl⟩ := fetchSignal_ok h
    left
    simp only [decode] at hd
    split at hd
    · next hc => cases hd; simp [hc]
    · cases hd
  | reset => cases h; left; simp
  | playStep => cases h; left; simp
  | complete =>
    simp only [fetch] at h
    split at h
    · next hc => cases h; left; simp [hc]
    · cases h
  | resume =>
    right
    simp only [fetch, fetchHeld] at h
    split at h
    · cases h
    · next r hr =>
      split at h
      · cases h
      · next ht => cases h; exact ⟨r, rfl, hr, ht, rfl, rfl⟩

/-- A move that goes on executed the operation it is. -/
theorem takeMove_next {m : Move} (h : takeMove m s = .next t) :
    ∃ i u, fetch m s = .ok (i, u) ∧ exec i u = .next t := by
  unfold takeMove at h
  split at h
  · exact ⟨_, _, by assumption, h⟩
  · cases h

theorem takeMove_of_fetch {m : Move} {i : Instr} {u : State} (h : fetch m s = .ok (i, u)) :
    takeMove m s = exec i u := by simp [takeMove, h]

theorem step_nil (h : s.script = []) : step s = .next s := by simp [step, h]

theorem step_cons {m : Move} {rest : List Move} (h : s.script = m :: rest) :
    step s = takeMove m s.popMove := by simp [step, h]

/-- A step that goes on made the next move, or there was none. -/
theorem step_next (h : step s = .next t) :
    (s.script = [] ∧ t = s) ∨ ∃ m rest, s.script = m :: rest ∧ takeMove m s.popMove = .next t := by
  unfold step at h
  split at h
  · next hs => cases h; exact .inl ⟨hs, rfl⟩
  · next m rest hs => exact .inr ⟨m, rest, hs, h⟩

theorem exec_isready : exec .isready s = .next (s.answer s.ready) := rfl

theorem exec_reset : exec .reset s = .next s.afterReset := rfl

/-- What TRANSMIT can do once it goes on: be held, or start the playback. -/
theorem exec_transmit_next (h : exec .transmit s = .next t) :
    s.pending = none ∧
      ((s.tstate = .busy ∧ t = s.hold .transmit) ∨
        (s.tstate = .idle ∧ s.chanValid = true ∧
          t = ((s.setCursor 0).setBusy).startPlayback s.cfg.frameLen s.chan)) := by
  obtain ⟨hp, h | ⟨ht, h⟩⟩ := holdUntilIdle_next h
  · exact ⟨hp, .inl h⟩
  · refine ⟨hp, .inr ⟨ht, ?_⟩⟩
    unfold transmitBody at h
    split at h
    · next hc => cases h; exact ⟨hc, rfl⟩
    · cases h

/-- What UPDATE can do once it goes on: be held, or encode. -/
theorem exec_update_next {id : TransponderId} (h : exec (.update id) s = .next t) :
    s.pending = none ∧
      ((s.tstate = .busy ∧ t = s.hold (.update id)) ∨ (s.tstate = .idle ∧ runEncode id s = .ok t)) := by
  change execUpdate id s = _ at h
  unfold execUpdate at h
  obtain ⟨hp, h | ⟨ht, h⟩⟩ := holdUntilIdle_next h
  · exact ⟨hp, .inl h⟩
  · exact ⟨hp, .inr ⟨ht, Answer.ofExcept_next.mp h⟩⟩

theorem exec_encode_next {id : TransponderId} (h : exec (.encode id) s = .next t) :
    runEncode id s = .ok t := Answer.ofExcept_next.mp h

theorem exec_init_next {ch : Chan} (h : exec (.init ch) s = .next t) :
    s.chanValid = false ∧ t = s.supplyChannel ch := by
  change execInit ch s = _ at h
  unfold execInit at h
  split at h
  · cases h
  · next hc => cases h; exact ⟨by simpa using hc, rfl⟩

theorem exec_startPlayback_next {n : Nat} {ch : Chan} (h : exec (.startPlayback n ch) s = .next t) :
    n ≤ s.cfg.cap ∧ s.pstate = .stopped ∧ s.tstate = .busy ∧ t = s.startPlayback n ch := by
  change execStartPlayback n ch s = _ at h
  unfold execStartPlayback at h
  split at h
  · next hc => cases h; exact ⟨hc.1, hc.2.1, hc.2.2, rfl⟩
  · cases h

theorem exec_playStep_next (h : exec .playStep s = .next t) :
    s.pstate = .playing ∧ s.ppos < s.plen ∧ s.ppos < s.cfg.cap ∧
      t = s.playEntry (Level.ofByte (Memory.read s.buf s.ppos)) := by
  change execPlayStep s = _ at h
  unfold execPlayStep at h
  split at h
  · next hc =>
    unfold memRead at h
    split at h
    · next hr => cases h; exact ⟨hc.1, hc.2, hr, rfl⟩
    · cases h
  · cases h

theorem exec_complete_next (h : exec .complete s = .next t) :
    (s.pstate = .playing ∧ s.ppos = s.plen ∧ t = s.takeCompletion) ∨
      (¬(s.pstate = .playing ∧ s.ppos = s.plen) ∧ s.tstate = .idle ∧ t = s) := by
  change execComplete s = _ at h
  unfold execComplete at h
  split at h
  · next hc => cases h; exact .inl ⟨hc.1, hc.2, rfl⟩
  · next hn =>
    split at h
    · next ht => cases h; exact .inr ⟨hn, ht, rfl⟩
    · cases h

end Sys2Proof.Machine
end

