-- ==== Sys2Proof/Tests/Slice0.lean ====
section
/-! SUPPORT. Tests on fixed values. Every expected result is copied from 95_test_vectors.md (sections 3.3, 3.5, 4,
5 and 6), in its configuration `T`, or from the rule named; and one witness per statement that has hypotheses. -/

namespace Sys2Proof.Tests

open Sys2Proof.Machine

/-- Configuration `T` of 95_test_vectors section 2, with the reference time unit of 50 microseconds and
eight channels. -/
def tinyParams : Params := ⟨1, 2, 16, 20, 1, 6, 50000, .finite 7⟩

def tiny : Config := ⟨tinyParams, by decide⟩

/-- `T` with seven identifier bytes, so a request word of 58 bits (R60). -/
def tiny7 : Config := ⟨{ tinyParams with idLen := 7 }, by decide⟩

/-- An identifier with the given byte 5. -/
def idWith (b : Byte) : TransponderId := ⟨0, 0, 0, 0, 0, b, []⟩

def after : Answer → Option State
  | .next s => some s
  | .fault _ => none
  | .refused _ => none

def refusal : Answer → Option Refusal
  | .next _ => none
  | .fault _ => none
  | .refused r => some r

def faultOf : Answer → Option Fault
  | .next _ => none
  | .fault f => some f
  | .refused _ => none

/-- The first `n` entries of the buffer, 1 for ON, as section 3.3 writes them. -/
def entries (s : State) (n : Nat) : List Nat := (List.range n).map fun i => (Memory.read s.buf i).toNat

def fresh : State := State.resetWith tiny

def withChannel : State := { fresh with chan := ⟨7⟩, chanValid := true }

/-- The buffer of section 5: code `101010`. -/
def staged : State :=
  { withChannel with
    buf := [(0, 1), (2, 1), (3, 1), (5, 1), (6, 1), (8, 1), (9, 1), (11, 1), (12, 1)]
    cursor := 16 }

def playingAt (n : Nat) : State :=
  { staged with cursor := 0, tstate := .busy, pstate := .playing, plen := 16, ppos := n, pchan := ⟨7⟩ }

def heldUpdate : State := { playingAt 5 with pending := some (.update (idWith 0x15)) }

/-! ## Decoding, by words written out from R60, R61, R63 and R64 -/

/-- Section 6: the identifier bits of ISREADY are ignored. -/
theorem test_decode_isready :
    decodeTableWord 56 0x0000000000000 = some .isready ∧ decodeTableWord 56 0x0FFFFFFFFFFFF = some .isready := by
  decide

/-- Section 6: `op = 01`, byte 5 in bits 47 to 40, byte 0 in bits 7 to 0. -/
theorem test_decode_update :
    decodeTableWord 56 0b01_00010101_00000000_00000000_00000000_00000000_00000000
      = some (.update (idWith 0x15)) ∧
    decodeTableWord 56 0x1D501EFBEADDE = some (.update ⟨0xDE, 0xAD, 0xBE, 0xEF, 0x01, 0xD5, []⟩) := by decide

theorem test_decode_transmit : decodeTableWord 56 0x2000000000000 = some .transmit := by decide

theorem test_decode_reserved : decodeTableWord 56 0x3000000000000 = some .reservedOp3 := by decide

/-- R60: 50 bits are all the port has. -/
theorem test_decode_too_wide : decodeTableWord 56 0x4000000000000 = none := by decide

/-- R60 with `ID_LEN = 7`: `op` is bits 57 and 56, byte 6 bits 55 to 48. -/
theorem test_decode_seven_bytes :
    decode tiny7 (.request 0x1AB3F0000000000) = .ok (.update ⟨0, 0, 0, 0, 0, 0x3F, [0xAB]⟩) := by decide

/-- R63, R64: the events. -/
theorem test_decode_events :
    decode tiny (.cfgValid ⟨7⟩) = .ok (.init ⟨7⟩) ∧ decode tiny .rst = .ok .reset ∧
    decode tiny (.playStart 16 ⟨7⟩) = .ok (.startPlayback 16 ⟨7⟩) ∧ decode tiny .playDone = .ok .complete ∧
    decode tiny (.cfgValid ⟨8⟩) = .error .notAHandle := by decide

/-- The table gives ENCODE and PLAY_STEP no encoding. -/
theorem test_internal_operations_have_no_signal :
    encode tiny (.encode (idWith 0)) = none ∧ encode tiny .playStep = none := by decide

/-- The encoder against section 6. -/
theorem test_encode_update : encode tiny (.update (idWith 0x3F)) = some (.request 0x13F0000000000) := by decide

/-! ## Well-formedness: one ill-formed term per check -/

theorem test_wellFormed_refuses_short_identifier :
    Instr.wellFormed tiny7 (.update (idWith 0)) = false ∧ Instr.wellFormed tiny7 (.encode (idWith 0)) = false ∧
    Instr.wellFormed tiny (.update (idWith 0)) = true ∧ Instr.wellFormed tiny (.encode (idWith 0)) = true := by
  decide

theorem test_wellFormed_refuses_long_playback :
    Instr.wellFormed tiny (.startPlayback 21 ⟨0⟩) = false ∧
    Instr.wellFormed tiny (.startPlayback 20 ⟨0⟩) = true := by decide

/-- R5: tag 7 names the last of eight channels. -/
theorem test_wellFormed_refuses_no_handle :
    Instr.wellFormed tiny (.init ⟨8⟩) = false ∧ Instr.wellFormed tiny (.startPlayback 16 ⟨8⟩) = false ∧
    Instr.wellFormed tiny (.init ⟨7⟩) = true := by decide

/-- R6, and section 3.5's two ill-formed configurations (the first two). -/
theorem test_illFormed_configurations :
    ¬ Params.WellFormed { tinyParams with frameLen := 15 } ∧
    ¬ Params.WellFormed { tinyParams with p0 := 2, frameLen := 20 } ∧
    ¬ Params.WellFormed { tinyParams with p0 := 0 } ∧ ¬ Params.WellFormed { tinyParams with onMark := 0 } ∧
    ¬ Params.WellFormed { tinyParams with idLen := 5 } ∧ ¬ Params.WellFormed { tinyParams with cap := 15 } := by
  decide

theorem test_boot_refuses : refusal (boot { tinyParams with frameLen := 15 }) = some .illFormedConfiguration := by
  decide

/-- R7: 10 bits for `CAP = 720`. -/
theorem test_cursor_width :
    ({ toParams := { tinyParams with cap := 720 }, valid := by decide } : Config).cursorW = 10 := by decide

/-! ## Encoder (sections 3.3 and 3.5) -/

theorem test_encode_15 :
    (after (exec (.encode (idWith 0x15)) fresh)).map (fun s => (entries s 20, s.cursor)) =
      some ([1,0,1,1,0,1,1,0,1,1,0,1,1,0,0,0, 0,0,0,0], 16) := by decide

/-- A short frame after a long one, cursor not 0 at entry. -/
theorem test_encode_erases_longer_frame :
    (after (exec (.encode (idWith 0x3F))
        { fresh with buf := [(0,1),(2,1),(3,1),(6,1),(7,1),(10,1),(11,1),(14,1)], cursor := 16 })).map
      (fun s => (entries s 16, s.cursor)) = some ([1,0,1,0,1,0,1,0,1,0,0,0,0,0,0,0], 16) := by decide

/-- V12: bits 7 and 6 of byte 5 do not count (parity of the code, not of the byte). -/
theorem test_frame_ignores_high_bits :
    (frame tiny (codeOf 0x40)).map BitVec.toNat = [1,0,1,1,0,0,1,1,0,0,1,1,0,0,1,0] := by decide

/-- Section 3.6: `1010010010011000` reads back as code `010101`. -/
theorem test_decodeFrame :
    decodeFrame tiny [1,0,1,0,0,1,0,0,1,0,0,1,1,0,0,0] = some 0b010101 := by decide

/-! ## Transmitter (section 4) -/

/-- X1. -/
theorem test_isready_after_reset : (after (exec .isready fresh)).map (·.rsp) = some (some true) := by decide

/-- X7. -/
theorem test_isready_while_busy : (after (exec .isready (playingAt 3))).map (·.rsp) = some (some false) := by
  decide

/-- X2 and X3. -/
theorem test_init :
    (after (exec (.init ⟨7⟩) fresh)).map (fun s => (s.chan, s.chanValid)) = some (⟨7⟩, true) ∧
    refusal (exec (.init ⟨9⟩) withChannel) = some .alreadyInitialised := by decide

/-- X5: no channel is needed, and the block is not Busy after it. -/
theorem test_update_before_init :
    (after (exec (.update (idWith 0x3F)) fresh)).map (fun s => (entries s 16, s.cursor, s.tstate)) =
      some ([1,0,1,0,1,0,1,0,1,0,0,0,0,0,0,0], 16, .idle) := by decide

/-- X8. -/
theorem test_update_held :
    after (exec (.update (idWith 0)) (playingAt 3)) =
      some { playingAt 3 with pending := some (.update (idWith 0)) } := by decide

/-- X6. -/
theorem test_transmit :
    (after (exec .transmit staged)).map (fun s => (s.tstate, s.cursor, s.pstate)) = some (.busy, 0, .playing) ∧
    (after (exec .transmit staged)).map (fun s => (s.ppos, s.plen, s.pchan)) = some (0, 16, ⟨7⟩) ∧
    (after (exec .transmit staged)).map (·.buf) = some staged.buf := by decide

/-- X4. -/
theorem test_transmit_without_channel : refusal (exec .transmit fresh) = some .noChannel := by decide

/-- X14. -/
theorem test_reserved_refused : refusal (exec .reservedOp3 staged) = some .reservedOpcode := by decide

/-! ## Playback and platform (sections 4 and 5) -/

/-- R112's example. -/
theorem test_startPlayback :
    (after (exec (.startPlayback 16 ⟨7⟩) { staged with tstate := .busy })).map
        (fun s => (s.pstate, s.plen, s.ppos, s.pchan)) = some (.playing, 16, 0, ⟨7⟩) := by decide

/-- Section 5: the first PLAY_STEP. -/
theorem test_playStep_first :
    (after (exec .playStep (playingAt 0))).map (fun s => (s.ppos, s.tx, s.trace)) =
      some (1, .on, [(⟨7⟩, .on)]) := by decide

/-- Section 5: any entry that is not 0 plays as ON. -/
theorem test_playStep_any_nonzero :
    (after (exec .playStep { playingAt 0 with buf := [(0, 0x80)] })).map (·.tx) = some .on := by decide

/-- X10 and X11. -/
theorem test_complete :
    (after (exec .complete (playingAt 16))).map (fun s => (s.tstate, s.pstate, s.cursor)) =
      some (.idle, .stopped, 0) ∧
    refusal (exec .complete (playingAt 15)) = some .completeNotEnabled := by decide

/-- X15: no change if injected, and not a step of the model. -/
theorem test_complete_spurious :
    after (exec .complete staged) = some staged ∧
    refusal (step { staged with script := [.complete] }) = some .completeNotEnabled := by decide

/-- X16. -/
theorem test_reset_mid_playback :
    (after (exec .reset heldUpdate)).map (fun s => (s.buf, s.tstate, s.cursor)) = some ([], .idle, 0) ∧
    (after (exec .reset heldUpdate)).map (fun s => (s.chanValid, s.pstate, s.tx)) =
      some (false, .stopped, .off) ∧
    (after (exec .reset heldUpdate)).map (·.pending) = some none := by decide

/-! ## The step -/

/-- Program A, step 3, from the reset state itself. -/
theorem test_step_isready_from_reset :
    (after (step (State.reset.withFetchWord 56 0x0000000000000))).map (·.rsp) = some (some true) := by decide

/-- X12: the hold lifts and the held UPDATE runs. -/
theorem test_step_held_update_runs :
    (after (step { withChannel with pending := some (.update (idWith 0)), script := [.resume] })).map
        (fun s => (entries s 16, s.cursor, s.pending)) =
      some ([1,0,1,1,0,0,1,1,0,0,1,1,0,0,1,0], 16, none) := by decide

/-- Program D: the held operation has no step while Busy. -/
theorem test_step_held_while_busy :
    refusal (step { heldUpdate with script := [.resume] }) = some .waitIdle := by decide

/-! ## Witnesses: states and operands that meet a statement's hypotheses -/

/-- What the encoder's statements assume of a state. -/
theorem witness_idle_canonical : Memory.wf staged.buf ∧ staged.tstate = .idle ∧ staged.pending = none := by
  decide

theorem witness_DecodeEncodeRoundTrip :
    Instr.wellFormed tiny7 (.update ⟨1, 2, 3, 4, 5, 6, [7]⟩) = true ∧
    (encode tiny7 (.update ⟨1, 2, 3, 4, 5, 6, [7]⟩)).isSome = true ∧
    Instr.wellFormed tiny (.startPlayback 20 ⟨7⟩) = true ∧
    (encode tiny (.startPlayback 20 ⟨7⟩)).isSome = true := by decide

/-- The four clauses where they meet: the least and the greatest word of each `op`. -/
theorem witness_RequestWordDecodesByOpBits :
    2 ^ 50 - 1 < 2 ^ tiny.requestBits ∧
    decode tiny (.request (2 ^ 48 - 1)) = .ok .isready ∧
    decode tiny (.request (2 ^ 48)) = .ok (.update (idWith 0)) ∧
    decode tiny (.request (2 * 2 ^ 48 - 1)) = .ok (.update ⟨255, 255, 255, 255, 255, 255, []⟩) ∧
    decode tiny (.request (2 * 2 ^ 48)) = .ok .transmit ∧
    decode tiny (.request (3 * 2 ^ 48 - 1)) = .ok .transmit ∧
    decode tiny (.request (3 * 2 ^ 48)) = .ok .reservedOp3 ∧
    decode tiny (.request (2 ^ 50 - 1)) = .ok .reservedOp3 := by decide

theorem witness_SignalsTooWideAreRejected :
    decode tiny (.request (2 ^ 50)) = .error .requestTooWide ∧
    decode tiny (.playStart 31 ⟨0⟩) = .ok (.startPlayback 31 ⟨0⟩) ∧
    decode tiny (.playStart 32 ⟨0⟩) = .error .lengthTooWide ∧ tiny.chanType.has ⟨8⟩ = false := by decide

theorem witness_CodeIsComplementOfSixBits :
    (idWith 0x15).b5.setWidth 6 = ((idWith 0xD5).b5.setWidth 6 : Code) ∧ idWith 0x15 ≠ idWith 0xD5 := by decide

/-- The parity run of code `101010` in `T` is indices 11 and 12. -/
theorem witness_ParityRunMakesOnesEven :
    2 * tiny.p0 + ((List.range 6).map (dataLength tiny (codeOf 0x15))).sum = 11 ∧
    popcount (codeOf 0x15) % 2 = 1 ∧ popcount (codeOf 0x3F) % 2 = 0 := by decide

/-- Busy; the first index outside the buffer; the last one inside. -/
theorem witness_OneEntryAccess :
    Memory.wf (playingAt 3).buf ∧ (playingAt 3).tstate = .busy ∧ staged.cfg.cap ≤ 20 ∧ 19 < staged.cfg.cap ∧
    (after (Answer.ofExcept (memWrite staged 19 5))).map (fun s => Memory.read s.buf 19) = some 5 ∧
    faultOf (Answer.ofExcept (memWrite staged 20 5)) = some .bufferIndexOutOfRange := by decide

theorem witness_HeaderPhase :
    Memory.wf withChannel.buf ∧ withChannel.tstate = .idle ∧ withChannel.cursor = 0 := by decide

/-- A run up to the last entry of the frame, and an empty run. -/
theorem witness_EmitWritesOneRun :
    { staged with cursor := 14 }.cursor + 2 ≤ staged.cfg.frameLen ∧ staged.cursor + 0 ≤ staged.cfg.frameLen ∧
    (after (Answer.ofExcept (emit 2 1 { staged with cursor := 14 }))).map (fun s => entries s 17) =
      some [1,0,1,1,0,1,1,0,1,1,0,1,1,0,1,1,0] := by decide

/-- Both data levels and both bits; the parity phase at the same cursor, both parities. -/
theorem witness_DataPhaseRun_ParityPhase :
    { staged with cursor := 14 }.cursor + staged.cfg.p1 ≤ staged.cfg.frameLen ∧
    (∀ k < 6, (phaseDataRun k (⟨0b101010, true⟩, { staged with cursor := 14 })).isOk = true) ∧
    (∀ par, (phaseParity (⟨0b101010, par⟩, { staged with cursor := 14 })).isOk = true) ∧
    (phaseData [0, 1, 2, 3, 4, 5] (⟨0b101010, true⟩, withChannel)).isOk = true := by decide

/-- An empty padding range and one of a single entry. -/
theorem witness_PadPhase :
    staged.cursor ≤ staged.cfg.frameLen ∧ { staged with cursor := 15 }.cursor ≤ staged.cfg.frameLen ∧
    (after (Answer.ofExcept (phasePad staged))).map (fun s => (s.cursor, s.buf)) = some (16, staged.buf) := by
  decide

/-- Two states that agree in nothing but the configuration, and two identifiers. -/
theorem witness_EncodeDependsOnSixBitsOnly :
    Memory.wf fresh.buf ∧ Memory.wf staged.buf ∧ fresh.tstate = .idle ∧ staged.tstate = .idle ∧
    fresh.cfg = staged.cfg ∧ fresh.buf ≠ staged.buf ∧
    (idWith 0x15).b5.setWidth 6 = ((idWith 0x95).b5.setWidth 6 : Code) := by decide

theorem witness_EncodeWhileBusyFaults :
    (playingAt 3).tstate = .busy ∧
    faultOf (exec (.encode (idWith 0)) (playingAt 3)) = some .bufferWriteWhileBusy := by decide

theorem witness_UpdateStagesTheFrame :
    staged.pending = none ∧ Memory.wf staged.buf ∧ staged.tstate = .idle ∧
    (playingAt 3).pending = none ∧ (playingAt 3).tstate = .busy := by decide

/-- Held, refused, started. -/
theorem witness_TransmitStartsThePlayback :
    ((playingAt 3).pending = none ∧ (playingAt 3).tstate = .busy) ∧
    (fresh.pending = none ∧ fresh.tstate = .idle ∧ fresh.chanValid = false) ∧
    (staged.pending = none ∧ staged.tstate = .idle ∧ staged.chanValid = true) := by decide

theorem witness_HoldUntilIdle :
    ((playingAt 3).pending = none ∧ (playingAt 3).tstate = .busy) ∧
    (heldUpdate.pending = some (.update (idWith 0x15)) ∧ heldUpdate.tstate = .busy) ∧
    (after (step { staged with pending := some .transmit, script := [.resume] })).map (·.tstate) = some .busy := by
  decide

theorem witness_IsReadyReadsTheFlag :
    2 ^ 48 - 1 < 2 ^ (8 * heldUpdate.cfg.idLen) ∧
    (after (step { heldUpdate with script := [.request .completion (2 ^ 48 - 1)] })).map (·.rsp) =
      some (some false) := by decide

theorem witness_ReservedOpcodeIsRefused :
    2 ^ 48 - 1 < 2 ^ (8 * fresh.cfg.idLen) ∧
    refusal (step { fresh with script := [.request .caller (requestWord 6 3 (2 ^ 48 - 1))] }) =
      some .reservedOpcode := by decide

theorem witness_InitSuppliesTheChannelOnce : fresh.chanValid = false ∧ withChannel.chanValid = true := by decide

theorem witness_OneBlockingRequestAtATime :
    heldUpdate.pending ≠ none ∧
    refusal (step { staged with script := [.request .completion 0x2000000000000] }) =
      some .blockingInCompletionContext := by decide

/-- The bound `CAP`, and each way out of the preconditions. -/
theorem witness_StartPlaybackWithinPreconditions :
    (after (exec (.startPlayback 20 ⟨7⟩) { staged with tstate := .busy })).isSome = true ∧
    refusal (exec (.startPlayback 21 ⟨7⟩) { staged with tstate := .busy }) = some .startPlaybackNotEnabled ∧
    refusal (exec (.startPlayback 16 ⟨7⟩) (playingAt 0)) = some .startPlaybackNotEnabled ∧
    refusal (exec (.startPlayback 16 ⟨7⟩) staged) = some .startPlaybackNotEnabled := by decide

/-- The last entry, no entry left, and no playback. -/
theorem witness_PlayStepPlaysOneEntry :
    (after (exec .playStep (playingAt 15))).map (fun s => (s.ppos, s.tx)) = some (16, .off) ∧
    refusal (exec .playStep (playingAt 16)) = some .playStepNotEnabled ∧
    refusal (exec .playStep staged) = some .playStepNotEnabled := by decide

theorem witness_CompleteReturnsToIdle :
    ((playingAt 16).pstate = .playing ∧ (playingAt 16).ppos = (playingAt 16).plen) ∧
    (staged.tstate = .idle ∧ staged.pstate = .stopped) ∧
    ((playingAt 15).tstate = .busy ∧ (playingAt 15).ppos ≠ (playingAt 15).plen) := by decide

theorem witness_PlaybackEmitsTheBuffer :
    (playingAt 0).pstate = .playing ∧ (playingAt 0).plen = (playingAt 0).cfg.frameLen ∧
    (playingAt 0).ppos = 0 := by decide

theorem witness_StagedFrameIsTransmitted :
    Memory.wf staged.buf ∧ staged.tstate = .idle ∧ staged.pending = none ∧ staged.chanValid = true := by decide

/-- The all-zero buffer being played, with a request held: Busy, and within every invariant. -/
def playingZeros : State :=
  { withChannel with
    tstate := .busy
    pstate := .playing
    plen := 16
    pchan := ⟨7⟩
    events := [.startPlayback 16 ⟨7⟩]
    pending := some .transmit }

theorem playingZeros_inv : playingZeros.Inv where
  canonical := Memory.wf_nil
  cursorInRange := by decide
  tailZero := fun _ _ => rfl
  entryAlphabet := fun _ => .inl rfl
  frameShape := .inl (by decide)
  playingIffBusy := by decide
  positionInRange := by decide
  playback := by decide
  darkAtRest := fun _ => rfl
  slotLevel := fun _ h => absurd h (by decide)
  handles := by decide
  heldHasChannel := by decide

theorem playingZeros_traceOfFrames : playingZeros.TraceOfFrames where
  emissions := ⟨[], rfl, by simp, by decide⟩
  silentBeforeInit := by decide
  exactlyOnce := by decide

/-- Busy within the invariants (the liveness statement), and a step from such a state (the invariants, the
history, the configuration, the canonical form, the buffer while Busy, the channel). -/
theorem witness_invariant_statements :
    (playingZeros.Inv ∧ playingZeros.TraceOfFrames) ∧ playingZeros.tstate = .busy ∧
    playingZeros.pending = some .transmit ∧ playingZeros.chanValid = true ∧
    (after (step { playingZeros with script := [.playStep] })).map (·.ppos) = some 1 :=
  ⟨⟨playingZeros_inv, playingZeros_traceOfFrames⟩, by decide, by decide, by decide, by decide⟩

theorem witness_InvariantsHoldAfterReset : (after (exec .reset playingZeros)).isSome = true := by decide

/-- R6 at the boundary of each clause. -/
theorem witness_OnlyWellFormedConfigurationsBoot :
    (after (boot tinyParams)).isSome = true ∧
    (after (boot { tinyParams with cap := 16 })).isSome = true ∧
    refusal (boot { tinyParams with p1 := 1 }) = some .illFormedConfiguration ∧
    refusal (boot { tinyParams with p0 := 0 }) = some .illFormedConfiguration ∧
    refusal (boot { tinyParams with onMark := 0 }) = some .illFormedConfiguration ∧
    refusal (boot { tinyParams with idLen := 5 }) = some .illFormedConfiguration ∧
    refusal (boot { tinyParams with cap := 15 }) = some .illFormedConfiguration := by decide

/-- One state per clause. -/
theorem witness_StepRunsTheNextMove :
    (after (step { fresh with script := [.request .caller 0x13F0000000000] })).map (·.cursor) = some 16 ∧
    (after (step { fresh with script := [.config ⟨7⟩] })).map (·.chan) = some ⟨7⟩ ∧
    (after (step { staged with script := [.reset] })).map (·.chanValid) = some false ∧
    (after (step { playingAt 0 with script := [.playStep] })).map (·.ppos) = some 1 ∧
    (after (step { playingAt 16 with script := [.complete] })).map (·.tstate) = some .idle ∧
    after (step fresh) = some fresh := by decide

theorem witness_FetchWordIsRunNext :
    fresh.cfg.idLen = 6 ∧ ({ fresh with cfg := tiny7 } : State).withTablePort.cfg = tiny ∧
    decodeTableWord 56 0x1150000000000 = some (.update (idWith 0x15)) ∧
    (after (step (fresh.withFetchWord 56 0x1150000000000))).map (·.buf) = some staged.buf := by decide

theorem witness_OnlyEncodeAndResetChangeTheBuffer : (after (exec .transmit staged)).isSome = true := by decide

/-- Idle to Busy, and Busy to Idle both ways. -/
theorem witness_WhoWritesTheFlag :
    (after (step { staged with script := [.request .caller 0x2000000000000] })).map (·.tstate) = some .busy ∧
    (after (step { playingAt 16 with script := [.complete] })).map (·.tstate) = some .idle ∧
    (after (step { playingAt 3 with script := [.reset] })).map (·.tstate) = some .idle := by decide

theorem fresh_inv : fresh.Inv where
  canonical := Memory.wf_nil
  cursorInRange := by decide
  tailZero := fun _ _ => rfl
  entryAlphabet := fun _ => .inl rfl
  frameShape := .inl (by decide)
  playingIffBusy := by decide
  positionInRange := by decide
  playback := by decide
  darkAtRest := fun _ => rfl
  slotLevel := fun h => absurd h (by decide)
  handles := by decide
  heldHasChannel := by decide

theorem fresh_traceOfFrames : fresh.TraceOfFrames where
  emissions := ⟨[], rfl, by simp, by decide⟩
  silentBeforeInit := fun _ => rfl
  exactlyOnce := by decide

/-- Due, and each way of not being due. -/
theorem witness_CollaboratorMovesOnlyWhenDue :
    (after (takeMove .complete (playingAt 16))).map (·.pstate) = some .stopped ∧
    refusal (takeMove .complete (playingAt 15)) = some .completeNotEnabled ∧
    refusal (takeMove .complete staged) = some .completeNotEnabled ∧ (playingAt 16).plen ≤ tiny.cap := by decide

/-- The step that ends the script, into a final state. -/
theorem witness_FinalStateOwesNothing :
    fresh.Inv ∧ fresh.TraceOfFrames ∧
    ∃ t, step { fresh with script := [.request .caller 0] } = .next t ∧ t.Final :=
  ⟨fresh_inv, fresh_traceOfFrames, _, rfl, rfl, rfl, rfl, rfl⟩

/-- A run that ends final, one that ends with the held request and the playback still owed, and one stopped by a
refusal, whose last state would otherwise be final. -/
theorem witness_EndOfARun :
    (after (runScript { fresh with script := [.config ⟨7⟩, .request .caller 0x13F0000000000] })).map
      (fun t => (t.script, t.pending, t.pstate, t.tstate)) = some ([], none, .stopped, .idle) ∧
    (after (runScript { fresh with
        script := [.config ⟨7⟩, .request .caller 0x2000000000000, .request .caller 0x2000000000000] })).map
      (fun t => (t.script, t.pending, t.pstate, t.tstate)) = some ([], some .transmit, .playing, .busy) ∧
    refusal (runScript { fresh with script := [.request .caller 0x2000000000000] }) = some .noChannel := by decide

/-! A state and its history: the zeros of an unwritten buffer are being played. -/

theorem playingZeros_follows : playingZeros.Follows ⟨none, [none]⟩ where
  latestFrame := by decide
  started := by decide
  emitted := by decide
  inFlightIsStaged := fun _ => rfl

theorem witness_StepFollowsTheHistory :
    playingZeros.Inv ∧ playingZeros.TraceOfFrames ∧ playingZeros.Follows ⟨none, [none]⟩ ∧
    (after (step { playingZeros with script := [.playStep] })).map (·.ppos) = some 1 ∧
    History.next ⟨none, []⟩ { fresh with script := [.request .caller 0x1150000000000] } = ⟨some 0b101010, []⟩ :=
  ⟨playingZeros_inv, playingZeros_traceOfFrames, playingZeros_follows, by decide, by decide⟩

/-- A state a run reaches, with its history. -/
theorem witness_ReachableStatesFollowTheirHistory :
    ∃ s, Reachable tiny ⟨some 0b101010, []⟩ s ∧ s.buf = staged.buf :=
  ⟨_, .step (.start [.request .caller 0x1150000000000]) rfl, by decide⟩

/-! An unending run that meets the assumptions on progress: the last entry has been played, and an UPDATE is held;
then COMPLETE, then the held UPDATE, then polling for ever. -/

def playedOut : State :=
  { playingZeros with ppos := 16, trace := List.replicate 16 (⟨7⟩, .off), pending := some (.update (idWith 0)) }

theorem playedOut_inv : playedOut.Inv where
  canonical := Memory.wf_nil
  cursorInRange := by decide
  tailZero := fun _ _ => rfl
  entryAlphabet := fun _ => .inl rfl
  frameShape := .inl (by decide)
  playingIffBusy := by decide
  positionInRange := by decide
  playback := by decide
  darkAtRest := fun _ => rfl
  slotLevel := fun _ _ h => absurd h (by decide)
  handles := by decide
  heldHasChannel := by decide

def updated : State := (after (takeMove .resume playedOut.takeCompletion)).getD fresh

theorem next_of_after {a : Answer} {d : State} (h : (after a).isSome = true) : a = .next ((after a).getD d) := by
  cases a <;> first | rfl | cases h

/-- The word 0 is ISREADY on every port. -/
theorem decode_zero (c : Config) : decode c (.request 0) = .ok .isready := by simp [decode, decodeRequest]

/-- Polling goes on in every state. -/
theorem poll (s : State) : takeMove (.request .caller 0) s = .next (s.answer s.ready) := by
  have hf : fetch (.request .caller 0) s = .ok (.isready, s) := by
    simp [fetch, fetchRequest, fetchSignal, decode_zero]
  rw [takeMove_of_fetch hf, exec_isready]

theorem updated_rest : updated.ready = true ∧ updated.pstate = .stopped ∧ updated.pending = none := by decide

def drained : Run where
  state
    | 0 => playedOut
    | 1 => playedOut.takeCompletion
    | 2 => updated
    | _ + 3 => updated.answer true
  move
    | 0 => .complete
    | 1 => .resume
    | _ + 2 => .request .caller 0
  made
    | 0 => rfl
    | 1 => next_of_after (by decide)
    | 2 => updated_rest.1 ▸ poll updated
    | _ + 3 => poll _

/-- From its fourth state on the run is at rest. -/
theorem drained_rest {m : Move} (hm : m = .playStep ∨ m = .complete ∨ m = .resume) : drained.WeaklyFair m := by
  intro n h
  obtain ⟨t, ht⟩ := h (n + 3) (by omega)
  have stop : refusal (takeMove m (updated.answer true)) ≠ none := by obtain rfl | rfl | rfl := hm <;> decide
  exact absurd (congrArg refusal ht) stop

theorem witness_progress :
    (drained.state 0).Inv ∧ drained.PlaybackCompletes ∧ drained.HeldProceeds ∧
    (drained.state 0).pstate = .playing ∧ (drained.state 0).pending = some (.update (idWith 0)) ∧
    ∀ k, 0 ≤ k → ¬ Blocks (drained.state k).cfg (drained.move k) := by
  refine ⟨playedOut_inv, ⟨drained_rest (.inl rfl), drained_rest (.inr (.inl rfl))⟩,
    drained_rest (.inr (.inr rfl)), rfl, rfl, ?_⟩
  rintro (_ | _ | k) - ⟨ctx, w, i, hm, hd, hb⟩
  · cases hm
  · cases hm
  · cases hm
    rw [decode_zero] at hd
    cases hd
    cases hb

end Sys2Proof.Tests
end

section
/-! The scope statements that name what the model refuses (R6, R60, R63, R64): no signal a port cannot carry is
decoded, and no ill-formed configuration boots. -/

namespace Sys2Proof.Machine

theorem decodeRequest_tooWide {n w : Nat} (h : 2 ^ (8 * n + 2) ≤ w) :
    decodeRequest n w = .error .requestTooWide := by rw [decodeRequest, if_neg (Nat.not_lt.mpr h)]

/-- Settles O4, port by port: the decoder's first test on each is the one the signal fails. -/
theorem signalsTooWideAreRejected : Obligations.SignalsTooWideAreRejected := by
  intro c
  refine ⟨fun w hw => decodeRequest_tooWide hw, fun n ch hn => ?_, fun ch hch => ?_⟩
  · rw [decode, if_pos hn]
  · rw [decode, if_neg (by simp [hch])]

theorem boot_wellFormed {p : Params} (h : p.WellFormed) : boot p = .next (State.resetWith ⟨p, h⟩) := by
  rw [boot, Params.build, dif_pos h]

theorem boot_illFormed {p : Params} (h : ¬ p.WellFormed) : boot p = .refused .illFormedConfiguration := by
  rw [boot, Params.build, dif_neg h]

/-- Settles O34: the first clause lists the six inequalities of R6, the second the negation of each. -/
theorem onlyWellFormedConfigurationsBoot : Obligations.OnlyWellFormedConfigurationsBoot := by
  intro p
  constructor
  · intro h0 h1 hmark hid hworst hcap
    have hne : p.onMark ≠ 0 := fun h => by simp [h] at hmark
    exact ⟨⟨p, h0, h1, hne, hid, hworst, hcap⟩, rfl, boot_wellFormed _⟩
  · intro hbad
    refine boot_illFormed fun ⟨h0, h1, hne, hid, hworst, hcap⟩ => ?_
    unfold Params.worst at hworst
    obtain h | h | h | h | h | h := hbad
    case inr.inr.inl => exact hne h
    all_goals omega

end Sys2Proof.Machine
end

section
/-! The measure of a frame (R58, R82): its length, the entries before the padding, and its alphabet. -/

namespace Sys2Proof.Machine

variable (c : Config) (code : Code)

/-- The length of runs of two kinds: as many of each as there are bits of that kind. -/
theorem sum_map_ite_eq_countP (l : List Nat) (p : Nat → Bool) (a b : Nat) :
    (l.map fun i => if p i then a else b).sum = l.countP p * a + l.countP (fun i => !p i) * b := by
  induction l with
  | nil => simp
  | cons i l ih => cases hp : p i <;> simp [ih, hp, Nat.add_mul] <;> omega

theorem popcount_le_six : popcount code ≤ 6 := List.countP_le_length

/-- The six data runs by the number of 1 bits: the transmit order is the reverse of the bit order (R54). -/
theorem sum_dataLength :
    ((List.range 6).map (dataLength c code)).sum = popcount code * c.p1 + (6 - popcount code) * c.p0 := by
  have hrev : (List.range 6).map (dataLength c code)
      = ((List.range 6).map fun i => if code.getLsbD i then c.p1 else c.p0).reverse := rfl
  have hcount : 6 = popcount code + (List.range 6).countP (fun i => !code.getLsbD i) := by
    simpa [popcount] using (List.range 6).length_eq_countP_add_countP (fun i => code.getLsbD i)
  rw [hrev, List.sum_reverse, sum_map_ite_eq_countP]
  congr 2
  omega

/-- R82: six long data runs come with even parity, so the parity run is then short. -/
theorem used_le_worst : used c code ≤ c.worst := by
  obtain ⟨-, hp, -⟩ := c.valid
  have hn := popcount_le_six code
  rw [used, sum_dataLength, parityRun, Params.worst]
  generalize popcount code = n at hn ⊢
  interval_cases n <;> simp <;> omega

theorem used_lt_frameLen : used c code < c.frameLen := by
  obtain ⟨-, -, -, -, hworst, -⟩ := c.valid
  exact Nat.lt_of_le_of_lt (used_le_worst c code) hworst

theorem frameLen_le_cap : c.frameLen ≤ c.cap := by
  obtain ⟨-, -, -, -, -, hcap⟩ := c.valid
  exact hcap

/-- The entries of the header (R52, R74). -/
def headerEntries : List Byte := List.replicate c.p0 c.onMark ++ List.replicate c.p0 0

theorem length_headerEntries : (headerEntries c).length = 2 * c.p0 := by
  simp [headerEntries, Nat.two_mul]

/-- The entries of the data runs at a list of transmit positions (R54, R75). -/
def dataEntries (ks : List Nat) : List Byte := ks.flatMap fun k => List.replicate (dataLength c code k) (dataByte c k)

theorem dataEntries_cons (k : Nat) (ks : List Nat) : dataEntries c code (k :: ks) =
    List.replicate (dataLength c code k) (dataByte c k) ++ dataEntries c code ks := rfl

theorem length_dataEntries (ks : List Nat) : (dataEntries c code ks).length = (ks.map (dataLength c code)).sum := by
  simp [dataEntries, List.length_flatMap]

/-- The frame by the phases that write it: header, data, parity, padding (R50, R71). -/
theorem frame_eq_phases :
    frame c code = headerEntries c ++ dataEntries c code (List.range 6)
      ++ List.replicate (parityRun c code) c.onMark ++ List.replicate (c.frameLen - used c code) 0 := by
  simp [frame, frameRuns, headerEntries, dataEntries, List.flatMap_map]

theorem length_frame : (frame c code).length = c.frameLen := by
  have hused := used_lt_frameLen c code
  simp only [frame_eq_phases, List.length_append, List.length_replicate, length_headerEntries, length_dataEntries]
  unfold used at hused ⊢
  omega

theorem levelByte_alphabet (l : Level) : levelByte c l = 0 ∨ levelByte c l = c.onMark := by
  cases l <;> simp [levelByte]

/-- I-6 of R25, of a frame: an entry is an on entry or an off entry. -/
theorem frame_alphabet {v : Byte} (h : v ∈ frame c code) : v = 0 ∨ v = c.onMark := by
  simp only [frame_eq_phases, headerEntries, dataEntries, List.mem_append, List.mem_flatMap, List.mem_replicate] at h
  obtain (((⟨-, hv⟩ | ⟨-, hv⟩) | ⟨k, -, -, hv⟩) | ⟨-, hv⟩) | ⟨-, hv⟩ := h
  case inl.inl.inr => exact hv ▸ levelByte_alphabet c _
  all_goals simp [hv]

/-- R55: after the six data steps the running parity says whether the number of 1 bits is even. -/
theorem foldl_parityStep : ∀ code : Code,
    (List.range 6).foldl (fun par k => parityStep par (codeBit code k)) parityStart
      = decide (popcount code % 2 = 0) := by decide

/-- R76: so the parity run has the length of the closed form. -/
theorem parityLength_foldl_parityStep :
    parityLength c ((List.range 6).foldl (fun par k => parityStep par (codeBit code k)) parityStart)
      = parityRun c code := by
  simp [foldl_parityStep, parityLength, parityRun]

end Sys2Proof.Machine
end

section
/-! ENCODE from an Idle state (R70 to R78): each phase stores a list of entries at the cursor, and together they
store the frame from index 0. -/

namespace Sys2Proof.Machine

/-- A list of entries stored from index `a` on. -/
def storeAll : Memory → Nat → List Byte → Memory
  | m, _, [] => m
  | m, a, v :: vs => storeAll (Memory.write m a v) (a + 1) vs

theorem wf_storeAll {m : Memory} (h : Memory.wf m) (a : Nat) (vs : List Byte) : Memory.wf (storeAll m a vs) := by
  induction vs generalizing m a with
  | nil => exact h
  | cons v vs ih => exact ih (Memory.wf_write h a v) (a + 1)

theorem read_storeAll {m : Memory} (h : Memory.wf m) (a : Nat) (vs : List Byte) (i : Nat) :
    Memory.read (storeAll m a vs) i =
      if a ≤ i ∧ i < a + vs.length then vs.getD (i - a) 0 else Memory.read m i := by
  induction vs generalizing m a with
  | nil => rw [storeAll, if_neg (by simp)]
  | cons v vs ih =>
    rw [storeAll, ih (Memory.wf_write h a v), Memory.read_write h, List.length_cons]
    by_cases hi : i = a
    · subst hi; simp
    · by_cases hin : a + 1 ≤ i ∧ i < a + 1 + vs.length
      · rw [if_pos hin, if_pos (by omega), show i - a = (i - (a + 1)) + 1 by omega, List.getD_cons_succ]
      · rw [if_neg hin, if_neg hi, if_neg (by omega)]

theorem storeAll_append (m : Memory) (a : Nat) (vs ws : List Byte) :
    storeAll m a (vs ++ ws) = storeAll (storeAll m a vs) (a + vs.length) ws := by
  induction vs generalizing m a with
  | nil => rfl
  | cons v vs ih =>
    rw [List.cons_append, storeAll, ih, storeAll, List.length_cons, Nat.add_assoc, Nat.add_comm 1]

theorem fill_eq_storeAll (m : Memory) (a n : Nat) (v : Byte) : fill m a n v = storeAll m a (List.replicate n v) := by
  induction n generalizing m a with
  | zero => rfl
  | succ n ih => rw [fill, ih]; rfl

/-- The state after a list of entries has been stored at the cursor. -/
def State.stored (s : State) (vs : List Byte) : State :=
  { s with buf := storeAll s.buf s.cursor vs, cursor := s.cursor + vs.length }

@[simp] theorem State.stored_cfg (s : State) (vs : List Byte) : (s.stored vs).cfg = s.cfg := rfl
@[simp] theorem State.stored_tstate (s : State) (vs : List Byte) : (s.stored vs).tstate = s.tstate := rfl
@[simp] theorem State.stored_buf (s : State) (vs : List Byte) : (s.stored vs).buf = storeAll s.buf s.cursor vs := rfl
@[simp] theorem State.stored_cursor (s : State) (vs : List Byte) : (s.stored vs).cursor = s.cursor + vs.length := rfl

theorem State.stored_nil (s : State) : s.stored [] = s := rfl

theorem State.stored_append (s : State) (vs ws : List Byte) : s.stored (vs ++ ws) = (s.stored vs).stored ws := by
  simp only [State.stored, storeAll_append, List.length_append, Nat.add_assoc]

theorem State.filled_eq_stored (s : State) (n : Nat) (v : Byte) : s.filled n v = s.stored (List.replicate n v) := by
  simp only [State.filled, State.stored, fill_eq_storeAll, List.length_replicate]

/-- ENCODE, once its first four phases are known, is its last (R71). -/
theorem runEncode_of_phases {id : TransponderId} {s s₁ s₂ s₃ : State} {x : Transients}
    (hheader : phaseHeader (s.setCursor 0) = .ok s₁)
    (hdata : phaseData (List.range 6) ((phaseCode id s).1, s₁) = .ok (x, s₂))
    (hparity : phaseParity (x, s₂) = .ok s₃) : runEncode id s = phasePad s₃ := by
  have hdata' : phaseData [0, 1, 2, 3, 4, 5] ((phaseCode id s).1, s₁) = .ok (x, s₂) := hdata
  have hheader' : phaseHeader (phaseCode id s).2 = .ok s₁ := hheader
  simp only [runEncode, hheader', hdata', hparity, Except.bind]

section Phases
variable {s : State} (ht : s.tstate = .idle)
include ht

theorem emit_stored {n : Nat} (hc : s.cursor + n ≤ s.cfg.cap) (v : Byte) :
    emit n v s = .ok (s.stored (List.replicate n v)) := by
  rw [emit_idle ht hc, State.filled_eq_stored]

theorem phaseHeader_stored (hc : s.cursor + 2 * s.cfg.p0 ≤ s.cfg.cap) :
    phaseHeader s = .ok (s.stored (headerEntries s.cfg)) := by
  rw [phaseHeader, emit_stored ht (by omega), headerEntries, State.stored_append]
  exact emit_stored (s := s.stored _) ht (by simp [levelByte]; omega) _

theorem phaseDataRun_stored (x : Transients) (k : Nat) (hc : s.cursor + dataLength s.cfg x.code k ≤ s.cfg.cap) :
    phaseDataRun k (x, s) = .ok (⟨x.code, parityStep x.par (codeBit x.code k)⟩,
      s.stored (List.replicate (dataLength s.cfg x.code k) (dataByte s.cfg k))) :=
  congrArg (Except.map _) (emit_stored ht hc _)

theorem phaseData_stored (ks : List Nat) (x : Transients)
    (hc : s.cursor + (dataEntries s.cfg x.code ks).length ≤ s.cfg.cap) :
    phaseData ks (x, s) = .ok (⟨x.code, ks.foldl (fun par k => parityStep par (codeBit x.code k)) x.par⟩,
      s.stored (dataEntries s.cfg x.code ks)) := by
  induction ks generalizing s x with
  | nil => rfl
  | cons k ks ih =>
    rw [dataEntries_cons, List.length_append, List.length_replicate] at hc
    rw [phaseData, phaseDataRun_stored ht x k (by omega), dataEntries_cons, State.stored_append]
    exact ih (s := s.stored _) ht ⟨x.code, _⟩ (by simp; omega)

theorem phaseParity_stored (x : Transients) (hc : s.cursor + parityLength s.cfg x.par ≤ s.cfg.cap) :
    phaseParity (x, s) = .ok (s.stored (List.replicate (parityLength s.cfg x.par) s.cfg.onMark)) :=
  emit_stored ht hc _

theorem phasePad_stored : phasePad s = .ok (s.stored (List.replicate (s.cfg.frameLen - s.cursor) 0)) := by
  rw [phasePad, padLoop_idle ht (by omega) (frameLen_le_cap s.cfg), State.filled_eq_stored]

/-- R71, R78: the five phases store the frame from index 0; no write of theirs meets the end of the buffer, for
`used` is less than FRAME_LEN (R82). -/
theorem runEncode_idle (id : TransponderId) :
    runEncode id s = .ok ((s.setCursor 0).stored (frame s.cfg (codeOf id.b5))) := by
  have hroom := Nat.lt_of_lt_of_le (used_lt_frameLen s.cfg (codeOf id.b5)) (frameLen_le_cap s.cfg)
  have hused : used s.cfg (codeOf id.b5) = 2 * s.cfg.p0
    + (dataEntries s.cfg (codeOf id.b5) (List.range 6)).length + parityRun s.cfg (codeOf id.b5) := by
    rw [used, length_dataEntries]
  let s₁ := (s.setCursor 0).stored (headerEntries s.cfg)
  let s₂ := s₁.stored (dataEntries s.cfg (codeOf id.b5) (List.range 6))
  let s₃ := s₂.stored (List.replicate (parityRun s.cfg (codeOf id.b5)) s.cfg.onMark)
  have h₁ : s₁.cursor = 2 * s.cfg.p0 := by simp [s₁, length_headerEntries]
  have h₂ : s₂.cursor = s₁.cursor + (dataEntries s.cfg (codeOf id.b5) (List.range 6)).length := rfl
  have h₃ : s₃.cursor = used s.cfg (codeOf id.b5) := by simp [s₃, h₂, h₁, hused]
  have hheader : phaseHeader (s.setCursor 0) = .ok s₁ := phaseHeader_stored ht (by simp; omega)
  have hdata := phaseData_stored (s := s₁) ht (List.range 6) (phaseCode id s).1
    (show s₁.cursor + (dataEntries s.cfg (codeOf id.b5) (List.range 6)).length ≤ s.cfg.cap by omega)
  have hparity := phaseParity_stored (s := s₂) ht
    ⟨codeOf id.b5, (List.range 6).foldl (fun par k => parityStep par (codeBit (codeOf id.b5) k)) parityStart⟩
    (by rw [parityLength_foldl_parityStep]; show s₂.cursor + parityRun s.cfg _ ≤ s.cfg.cap; omega)
  have hpad : phasePad s₃ = .ok (s₃.stored (List.replicate (s.cfg.frameLen - s₃.cursor) 0)) := phasePad_stored ht
  rw [parityLength_foldl_parityStep] at hparity
  rw [runEncode_of_phases hheader hdata hparity]
  refine hpad.trans ?_
  simp only [h₃, frame_eq_phases, State.stored_append, s₁, s₂, s₃]

end Phases

end Sys2Proof.Machine
end

section
/-! The invariants (R25, R18, R114, R119), operation by operation: each lemma proves the clauses its operation can
touch and keeps the others, then every step is one of these operations. -/

namespace Sys2Proof.Machine

variable {s t : State}

/-- The contents of the buffer once a frame has been stored from index 0 (R78). -/
theorem read_storeAll_frame {m : Memory} (h : Memory.wf m) (c : Config) (code : Code) (i : Nat) :
    Memory.read (storeAll m 0 (frame c code)) i =
      if i < c.frameLen then (frame c code).getD i 0 else Memory.read m i := by
  simp [read_storeAll h, length_frame]

theorem frameRegion_stored_frame (h : Memory.wf s.buf) (code : Code) :
    ((s.setCursor 0).stored (frame s.cfg code)).frameRegion = frame s.cfg code := by
  refine List.ext_getElem (by simp [State.frameRegion, length_frame]) fun i hi hi' => ?_
  have hlt : i < s.cfg.frameLen := by simpa [State.frameRegion] using hi
  simp [State.frameRegion, read_storeAll_frame h, hlt, hi']

theorem State.Inv.stopped (h : s.Inv) (ht : s.tstate = .idle) : s.pstate = .stopped := by
  cases hp : s.pstate with
  | stopped => rfl
  | playing => exact absurd (h.playingIffBusy.mp hp) (by simp [ht])

theorem State.Inv.chanValid_of_playing (h : s.Inv) (hp : s.pstate = .playing) : s.chanValid = true := by
  obtain ⟨-, -, hv⟩ := h.playback hp
  exact hv

theorem State.Inv.popMove (h : s.Inv) : s.popMove.Inv := { h with }

theorem State.Inv.answer (h : s.Inv) (b : Bool) : (s.answer b).Inv := { h with }

theorem State.Inv.releaseHold (h : s.Inv) : s.releaseHold.Inv :=
  { h with heldHasChannel := fun hp => absurd rfl hp }

theorem State.Inv.hold (h : s.Inv) (ht : s.tstate = .busy) (r : Request) : (s.hold r).Inv :=
  { h with heldHasChannel := fun _ => h.chanValid_of_playing (h.playingIffBusy.mpr ht) }

/-- INIT comes before the first playback, so none is on another channel (R119). -/
theorem State.Inv.supplyChannel (h : s.Inv) (hv : s.chanValid = false) {ch : Chan}
    (hch : s.cfg.chanType.has ch = true) : (s.supplyChannel ch).Inv :=
  { h with
    playback := fun hp => absurd (h.chanValid_of_playing hp) (by simp [hv])
    handles := ⟨hch, h.handles.2⟩
    heldHasChannel := fun _ => rfl }

/-- I-2 to I-4 and I-6 of R25 over an ENCODE: the frame region becomes a frame, the tail stays. -/
theorem State.Inv.encoded (h : s.Inv) (ht : s.tstate = .idle) (code : Code) :
    ((s.setCursor 0).stored (frame s.cfg code)).Inv :=
  have hread := read_storeAll_frame h.canonical s.cfg code
  { h with
    canonical := wf_storeAll h.canonical 0 _
    cursorInRange := by simp [length_frame]
    tailZero := fun i hi => ((hread i).trans (if_neg (Nat.not_lt.mpr hi))).trans (h.tailZero i hi)
    entryAlphabet := fun i => by
      by_cases hi : i < s.cfg.frameLen
      · have hi' : i < (frame s.cfg code).length := by rwa [length_frame]
        have hv := (hread i).trans (if_pos hi)
        rw [List.getD_eq_getElem _ _ hi'] at hv
        exact hv ▸ frame_alphabet s.cfg code (List.getElem_mem hi')
      · exact ((hread i).trans (if_neg hi)) ▸ h.entryAlphabet i
    frameShape := .inr ⟨code, frameRegion_stored_frame h.canonical code⟩
    slotLevel := fun hp => absurd ((h.stopped ht).symm.trans hp) (by decide) }

/-- TRANSMIT's start: the output is OFF, for the transmitter was Idle. -/
theorem State.Inv.transmitted (h : s.Inv) (ht : s.tstate = .idle) (hv : s.chanValid = true) :
    (((s.setCursor 0).setBusy).startPlayback s.cfg.frameLen s.chan).Inv :=
  { h with
    cursorInRange := Nat.zero_le _
    playingIffBusy := ⟨fun _ => rfl, fun _ => rfl⟩
    positionInRange := ⟨Nat.zero_le _, frameLen_le_cap s.cfg⟩
    playback := fun _ => ⟨rfl, rfl, hv⟩
    darkAtRest := fun _ => h.darkAtRest (.inl (h.stopped ht))
    slotLevel := fun _ hpos => absurd hpos (Nat.lt_irrefl 0)
    handles := ⟨h.handles.1, h.handles.1⟩ }

/-- PLAY_STEP: the output takes the level of the entry played, and goes OFF after the last (R113, R114). -/
theorem State.Inv.playEntry (h : s.Inv) (hp : s.pstate = .playing) (hpos : s.ppos < s.plen) :
    (s.playEntry (Level.ofByte (Memory.read s.buf s.ppos))).Inv :=
  { h with
    positionInRange := ⟨hpos, h.positionInRange.2⟩
    darkAtRest := by
      rintro (hstop | hzero | hlast)
      · exact absurd (hp.symm.trans hstop) (by decide)
      · exact absurd hzero (Nat.succ_ne_zero _)
      · exact if_pos hlast
    slotLevel := fun _ _ hlt => if_neg (Nat.ne_of_lt hlt) }

/-- Free values of a stopped playback are within R18 and the type `Chan` (U12). -/
theorem forgetPlayback_positionInRange (s : State) :
    s.forgetPlayback.ppos ≤ s.forgetPlayback.plen ∧ s.forgetPlayback.plen ≤ s.cfg.cap :=
  ⟨Nat.le_of_lt_succ (Nat.mod_lt _ (Nat.succ_pos _)), Nat.le_of_lt_succ (Nat.mod_lt _ (Nat.succ_pos _))⟩

/-- COMPLETE: the last PLAY_STEP has left the output OFF (R137). -/
theorem State.Inv.takeCompletion (h : s.Inv) (hdue : s.ppos = s.plen) : s.takeCompletion.Inv :=
  { h with
    playingIffBusy := ⟨nofun, nofun⟩
    positionInRange := forgetPlayback_positionInRange s
    playback := nofun
    darkAtRest := fun _ => h.darkAtRest (.inr (.inr hdue))
    slotLevel := nofun
    handles := ⟨h.handles.1, ChanType.has_select _ _⟩ }

/-- RESET makes the invariants hold, whatever the state before it (R26, R145). -/
theorem State.afterReset_inv (s : State) : s.afterReset.Inv where
  canonical := Memory.wf_nil
  cursorInRange := Nat.zero_le _
  tailZero := fun _ _ => rfl
  entryAlphabet := fun _ => .inl rfl
  frameShape := .inl (by simp [State.frameRegion, List.eq_replicate_iff])
  playingIffBusy := ⟨nofun, nofun⟩
  positionInRange := forgetPlayback_positionInRange s
  playback := nofun
  darkAtRest := fun _ => rfl
  slotLevel := nofun
  handles := ⟨ChanType.has_select _ _, ChanType.has_select _ _⟩
  heldHasChannel := fun hp => absurd rfl hp

/-- Every operation that a step can run keeps the invariants. -/
theorem State.Inv.exec {i : Instr} (h : s.Inv) (hencode : ∀ id, i ≠ .encode id)
    (hstart : ∀ n ch, i ≠ .startPlayback n ch) (hinit : ∀ ch, i = .init ch → s.cfg.chanType.has ch = true)
    (hnext : exec i s = .next t) : t.Inv := by
  cases i with
  | isready =>
    rw [exec_isready] at hnext
    cases hnext
    exact h.answer _
  | update id =>
    obtain ⟨-, ⟨ht, rfl⟩ | ⟨ht, hrun⟩⟩ := exec_update_next hnext
    · exact h.hold ht _
    · rw [runEncode_idle ht] at hrun
      cases hrun
      exact h.encoded ht _
  | transmit =>
    obtain ⟨-, ⟨ht, rfl⟩ | ⟨ht, hv, rfl⟩⟩ := exec_transmit_next hnext
    · exact h.hold ht _
    · exact h.transmitted ht hv
  | reservedOp3 => cases hnext
  | init ch =>
    obtain ⟨hv, rfl⟩ := exec_init_next hnext
    exact h.supplyChannel hv (hinit ch rfl)
  | reset =>
    rw [exec_reset] at hnext
    cases hnext
    exact s.afterReset_inv
  | encode id => exact absurd rfl (hencode id)
  | startPlayback n ch => exact absurd rfl (hstart n ch)
  | playStep =>
    obtain ⟨hp, hpos, -, rfl⟩ := exec_playStep_next hnext
    exact h.playEntry hp hpos
  | complete =>
    obtain ⟨-, hdue, rfl⟩ | ⟨-, -, rfl⟩ := exec_complete_next hnext
    · exact h.takeCompletion hdue
    · exact h

/-- A held request is an UPDATE or a TRANSMIT (R19), no operation that only the core makes and no INIT. -/
theorem request_instr_ne_internal (r : Request) :
    (∀ id, r.instr ≠ .encode id) ∧ (∀ n ch, r.instr ≠ .startPlayback n ch) ∧ ∀ ch, r.instr ≠ .init ch := by
  cases r <;> simp [Request.instr]

theorem State.Inv.takeMove {m : Move} (h : s.Inv) (hnext : takeMove m s = .next t) : t.Inv := by
  obtain ⟨i, u, hfetch, hexec⟩ := takeMove_next hnext
  obtain ⟨rfl, -, hencode, hstart, -, -, -, -, hinit⟩ | ⟨r, -, -, -, rfl, rfl⟩ := fetch_ok hfetch
  · exact h.exec hencode hstart hinit hexec
  · obtain ⟨hencode, hstart, hinit⟩ := request_instr_ne_internal r
    exact h.releaseHold.exec hencode hstart (fun ch hch => absurd hch (hinit ch)) hexec

/-- Settles O40: a step makes the next move of the schedule, or there is none left. -/
theorem stepKeepsTheInvariants : Obligations.StepKeepsTheInvariants := by
  intro s t h hstep
  obtain ⟨-, rfl⟩ | ⟨m, rest, -, hmove⟩ := step_next hstep
  · exact h
  · exact h.popMove.takeMove hmove

end Sys2Proof.Machine
end

section
/-! What one move can do: the inversion of a step, whatever the state, for the claims about who writes what. -/

namespace Sys2Proof.Machine

variable {s t u : State} {m : Move} {i : Instr}

/-- What an operation can do to the state it acts on once an agent's move has fetched it. The core makes ENCODE and
START_PLAYBACK as parts of UPDATE and TRANSMIT only, and COMPLETE is a move only when due (R92, R95, R115). -/
inductive Effect (s : State) : Instr → State → Prop
  | answered : Effect s .isready (s.answer s.ready)
  | held (r : Request) : s.tstate = .busy → Effect s r.instr (s.hold r)
  | encoded (id : TransponderId) : s.tstate = .idle →
      Effect s (.update id) ((s.setCursor 0).stored (frame s.cfg (codeOf id.b5)))
  | started : s.tstate = .idle → s.chanValid = true →
      Effect s .transmit (((s.setCursor 0).setBusy).startPlayback s.cfg.frameLen s.chan)
  | supplied (ch : Chan) : s.chanValid = false → Effect s (.init ch) (s.supplyChannel ch)
  | wiped : Effect s .reset s.afterReset
  | played : s.pstate = .playing → s.ppos < s.plen →
      Effect s .playStep (s.playEntry (Level.ofByte (Memory.read s.buf s.ppos)))
  | completed : s.pstate = .playing → s.ppos = s.plen → Effect s .complete s.takeCompletion

theorem exec_effect (hencode : ∀ id, i ≠ .encode id) (hstart : ∀ n ch, i ≠ .startPlayback n ch)
    (hdue : i = .complete → s.pstate = .playing ∧ s.ppos = s.plen) (hnext : exec i s = .next t) :
    Effect s i t := by
  cases i with
  | isready =>
    rw [exec_isready] at hnext
    cases hnext
    exact .answered
  | update id =>
    obtain ⟨-, ⟨ht, rfl⟩ | ⟨ht, hrun⟩⟩ := exec_update_next hnext
    · exact .held (.update id) ht
    · rw [runEncode_idle ht] at hrun
      cases hrun
      exact .encoded id ht
  | transmit =>
    obtain ⟨-, ⟨ht, rfl⟩ | ⟨ht, hv, rfl⟩⟩ := exec_transmit_next hnext
    · exact .held .transmit ht
    · exact .started ht hv
  | reservedOp3 => cases hnext
  | init ch =>
    obtain ⟨hv, rfl⟩ := exec_init_next hnext
    exact .supplied ch hv
  | reset =>
    rw [exec_reset] at hnext
    cases hnext
    exact .wiped
  | encode id => exact absurd rfl (hencode id)
  | startPlayback n ch => exact absurd rfl (hstart n ch)
  | playStep =>
    obtain ⟨hp, hpos, -, rfl⟩ := exec_playStep_next hnext
    exact .played hp hpos
  | complete =>
    obtain ⟨hp, hpos, rfl⟩ | ⟨hnot, -, -⟩ := exec_complete_next hnext
    · exact .completed hp hpos
    · exact absurd (hdue rfl) hnot

theorem takeMove_effect (h : takeMove m s = .next t) : ∃ i u, fetch m s = .ok (i, u) ∧ Effect u i t := by
  obtain ⟨i, u, hfetch, hexec⟩ := takeMove_next h
  refine ⟨i, u, hfetch, ?_⟩
  obtain ⟨rfl, -, hencode, hstart, -, -, hcomplete, hdue, -⟩ | ⟨r, -, -, -, rfl, rfl⟩ := fetch_ok hfetch
  · exact exec_effect hencode hstart (hdue ∘ hcomplete.mp) hexec
  · obtain ⟨hencode, hstart, -⟩ := request_instr_ne_internal r
    exact exec_effect hencode hstart (fun hr => by cases r <;> cases hr) hexec

/-- A step that goes on is the effect of the next move's operation, or there was no move. -/
theorem step_effect (h : step s = .next t) : (s.script = [] ∧ t = s) ∨
    ∃ m i u, s.script.head? = some m ∧ fetch m s.popMove = .ok (i, u) ∧ Effect u i t := by
  obtain hnil | ⟨m, rest, hscript, hmove⟩ := step_next h
  · exact .inl hnil
  · obtain ⟨i, u, hfetch, heff⟩ := takeMove_effect hmove
    exact .inr ⟨m, i, u, by simp [hscript], hfetch, heff⟩

/-- An operation acts on the state its move finds, without the request it was held as (R96). -/
theorem fetch_acts_on (h : fetch m s = .ok (i, u)) : u = s ∨ u = s.releaseHold := by
  obtain ⟨rfl, -⟩ | ⟨r, -, -, -, -, rfl⟩ := fetch_ok h
  · exact .inl rfl
  · exact .inr rfl

theorem fetch_reset (h : fetch m s = .ok (.reset, u)) : m = .reset := by
  obtain ⟨-, -, -, -, hreset, -⟩ | ⟨r, -, -, -, hr, -⟩ := fetch_ok h
  · exact hreset.mp rfl
  · cases r <;> cases hr

theorem fetch_complete (h : fetch m s = .ok (.complete, u)) : m = .complete := by
  obtain ⟨-, -, -, -, -, -, hcomplete, -⟩ | ⟨r, -, -, -, hr, -⟩ := fetch_ok h
  · exact hcomplete.mp rfl
  · cases r <;> cases hr

/-- No operation writes the parameters (R10, R148). -/
theorem Effect.cfg_eq (h : Effect s i t) : t.cfg = s.cfg := by cases h <;> rfl

/-- I-1 of R25: ENCODE, the one operation but RESET that writes the buffer, has no effect while Busy. -/
theorem Effect.buf_of_busy (h : Effect s i t) (hb : s.tstate = .busy) : t.buf = s.buf ∨ i = .reset := by
  cases h with
  | encoded id hidle => simp [hb] at hidle
  | wiped => exact .inr rfl
  | _ => exact .inl rfl

/-- R12: the one operation that sets the flag is TRANSMIT's start. -/
theorem Effect.transmit_of_busy (h : Effect s i t) (hs : s.tstate = .idle) (ht : t.tstate = .busy) :
    i = .transmit ∧ s.chanValid = true := by
  cases h with
  | started _ hv => exact ⟨rfl, hv⟩
  | held r hb => simp [hs] at hb
  | wiped => cases ht
  | completed => cases ht
  | _ => exact absurd (hs.symm.trans ht) (by decide)

/-- R12, R100: two operations clear the flag. -/
theorem Effect.reset_or_complete_of_idle (h : Effect s i t) (hs : s.tstate = .busy) (ht : t.tstate = .idle) :
    i = .reset ∨ (i = .complete ∧ s.pstate = .playing ∧ s.ppos = s.plen) := by
  cases h with
  | wiped => exact .inl rfl
  | completed hp hpos => exact .inr ⟨rfl, hp, hpos⟩
  | started => cases ht
  | _ => exact absurd (hs.symm.trans ht) (by decide)

/-- Settles O43: fetching an operation writes no buffer either. -/
theorem bufferIsNotWrittenWhileBusy : Obligations.BufferIsNotWrittenWhileBusy := by
  intro s t hb hstep
  obtain ⟨-, rfl⟩ | ⟨m, i, u, hhead, hfetch, heff⟩ := step_effect hstep
  · exact .inl rfl
  · have hu : u.tstate = s.tstate ∧ u.buf = s.buf := by
      obtain rfl | rfl := fetch_acts_on hfetch <;> exact ⟨rfl, rfl⟩
    obtain hbuf | rfl := heff.buf_of_busy (hu.1.trans hb)
    · exact .inl (hbuf.trans hu.2)
    · exact .inr (fetch_reset hfetch ▸ hhead)

/-- Settles O37: neither the fetch of an operation nor its effect writes `cfg`. -/
theorem stepKeepsTheConfiguration : Obligations.StepKeepsTheConfiguration := by
  intro s t hstep
  obtain ⟨-, rfl⟩ | ⟨m, i, u, -, hfetch, heff⟩ := step_effect hstep
  · rfl
  · rw [heff.cfg_eq]
    obtain rfl | rfl := fetch_acts_on hfetch <;> rfl

/-- Settles O45: the operation that writes the flag, read back through `fetch` to the move that is it. -/
theorem whoWritesTheFlag : Obligations.WhoWritesTheFlag := by
  intro s t hstep
  obtain ⟨-, rfl⟩ | ⟨m, i, u, hhead, hfetch, heff⟩ := step_effect hstep
  · exact ⟨fun hs ht => absurd (hs.symm.trans ht) (by decide), fun hs ht => absurd (hs.symm.trans ht) (by decide)⟩
  · have hu : u.tstate = s.tstate ∧ u.chanValid = s.chanValid ∧ u.pstate = s.pstate ∧ u.ppos = s.ppos ∧
        u.plen = s.plen := by
      obtain rfl | rfl := fetch_acts_on hfetch <;> exact ⟨rfl, rfl, rfl, rfl, rfl⟩
    obtain ⟨htstate, hvalid, hpstate, hppos, hplen⟩ := hu
    rw [← htstate, ← hvalid, ← hpstate, ← hppos, ← hplen]
    constructor
    · intro hs ht
      obtain ⟨rfl, hv⟩ := heff.transmit_of_busy hs ht
      exact ⟨hv, m, u, hhead, hfetch⟩
    · intro hs ht
      obtain rfl | ⟨rfl, hdue⟩ := heff.reset_or_complete_of_idle hs ht
      · exact .inl (fetch_reset hfetch ▸ hhead)
      · exact .inr ⟨fetch_complete hfetch ▸ hhead, hdue⟩

end Sys2Proof.Machine
end

section
/-! A state and its history (R25, R117, R166): what each operation adds to the two, and how the shape of the output
history follows. -/

namespace Sys2Proof.Machine

variable {s t : State} {i : Instr} {hist : History}

@[simp] theorem starts_append_start (es : List Event) (n : Nat) (ch : Chan) :
    starts (es ++ [.startPlayback n ch]) = starts es + 1 := by simp [starts]

@[simp] theorem completions_append_start (es : List Event) (n : Nat) (ch : Chan) :
    completions (es ++ [.startPlayback n ch]) = completions es := by simp [completions]

@[simp] theorem starts_append_complete (es : List Event) : starts (es ++ [.complete]) = starts es := by
  simp [starts]

@[simp] theorem completions_append_complete (es : List Event) :
    completions (es ++ [.complete]) = completions es + 1 := by simp [completions]

theorem State.length_frameRegion (s : State) : s.frameRegion.length = s.cfg.frameLen := by
  simp [State.frameRegion]

theorem State.inFlight_stopped (hp : s.pstate = .stopped) : s.inFlight = [] := by simp [State.inFlight, hp]

theorem State.inFlight_playing (hp : s.pstate = .playing) :
    s.inFlight = (s.frameRegion.take s.ppos).map Level.ofByte := by simp [State.inFlight, hp]

/-- A PLAY_STEP within the frame region adds the level of one entry (R113). -/
theorem State.inFlight_playEntry (hp : s.pstate = .playing) (hpos : s.ppos < s.cfg.frameLen) (l : Level) :
    (s.playEntry l).inFlight = s.inFlight ++ [Level.ofByte (Memory.read s.buf s.ppos)] := by
  have hentry : s.frameRegion[s.ppos]? = some (Memory.read s.buf s.ppos) := by
    simp [State.frameRegion, hpos]
  rw [State.inFlight_playing hp, State.inFlight_playing (s := s.playEntry l) hp]
  show (s.frameRegion.take (s.ppos + 1)).map Level.ofByte = _
  simp [List.take_add_one, hentry]

theorem isEmission_emission (c : Config) (staged : Option Code) : IsEmission c (emission c staged) := by
  cases staged with
  | none => exact .inl (by simp [emission, stagedFrame, Level.ofByte])
  | some code => exact .inr ⟨code, rfl⟩

/-! ## The history after a move -/

theorem History.next_nil (h : s.script = []) : hist.next s = hist := by simp [History.next, h]

theorem History.next_of_fetch {m : Move} {u : State} (hhead : s.script.head? = some m)
    (hfetch : fetch m s.popMove = .ok (i, u)) : hist.next s = hist.after i u := by
  obtain ⟨rest, hscript⟩ := List.head?_eq_some_iff.mp hhead
  simp [History.next, hscript, hfetch]

/-- A request that is held has not completed (R96). -/
theorem History.after_held (ht : s.tstate = .busy) (r : Request) : hist.after r.instr s = hist := by
  cases r <;> simp [History.after, Request.instr, ht]

theorem History.after_update (ht : s.tstate = .idle) (id : TransponderId) :
    hist.after (.update id) s = { hist with staged := some (codeOf id.b5) } := by simp [History.after, ht]

theorem History.after_transmit (ht : s.tstate = .idle) :
    hist.after .transmit s = { hist with sent := hist.sent ++ [hist.staged] } := by simp [History.after, ht]

/-! ## Counting playbacks -/

/-- R115 (1): a start opens a playback where none is in flight, a completion closes the one that is. -/
theorem Effect.exactlyOnce (h : Effect s i t) (hinv : s.Inv) (htrace : s.TraceOfFrames) :
    starts t.events = completions t.events + (if t.pstate = .playing then 1 else 0) := by
  have honce := htrace.exactlyOnce
  cases h with
  | started ht => simpa [hinv.stopped ht] using honce
  | completed hp => simpa [hp] using honce
  | wiped => rfl
  | _ => exact honce

/-- R95, R119: what is on the output history was played by a playback, which has a channel. -/
theorem Effect.silentBeforeInit (h : Effect s i t) (hinv : s.Inv) (htrace : s.TraceOfFrames) :
    t.chanValid = false → t.trace = [] := by
  cases h with
  | supplied => exact nofun
  | wiped => exact fun _ => rfl
  | played hp => exact fun hv => absurd (hinv.chanValid_of_playing hp) (by simpa using hv)
  | _ => exact htrace.silentBeforeInit

theorem State.TraceOfFrames.completions_le_starts (h : s.TraceOfFrames) :
    completions s.events ≤ starts s.events := h.exactlyOnce ▸ Nat.le_add_right _ _

/-! ## Following the history, operation by operation -/

theorem State.Follows.popMove (h : s.Follows hist) : s.popMove.Follows hist := { h with }

theorem State.Follows.releaseHold (h : s.Follows hist) : s.releaseHold.Follows hist := { h with }

theorem State.TraceOfFrames.popMove (h : s.TraceOfFrames) : s.popMove.TraceOfFrames := { h with }

theorem State.TraceOfFrames.releaseHold (h : s.TraceOfFrames) : s.releaseHold.TraceOfFrames := { h with }

/-- An UPDATE stages its frame with no playback in flight (R92). -/
theorem State.Follows.encoded (h : s.Follows hist) (hinv : s.Inv) (ht : s.tstate = .idle) (code : Code) :
    ((s.setCursor 0).stored (frame s.cfg code)).Follows { hist with staged := some code } where
  latestFrame := frameRegion_stored_frame hinv.canonical code
  started := h.started
  emitted := by
    have hp := hinv.stopped ht
    have hemitted := h.emitted
    rw [State.inFlight_stopped hp] at hemitted
    rw [State.inFlight_stopped (s := (s.setCursor 0).stored _) hp]
    exact hemitted
  inFlightIsStaged := fun hp => absurd ((hinv.stopped ht).symm.trans hp) (by decide)

/-- TRANSMIT's start sends what is staged, and has emitted nothing of it yet (R95). -/
theorem State.Follows.transmitted (h : s.Follows hist) (hinv : s.Inv) (htrace : s.TraceOfFrames)
    (ht : s.tstate = .idle) :
    (((s.setCursor 0).setBusy).startPlayback s.cfg.frameLen s.chan).Follows
      { hist with sent := hist.sent ++ [hist.staged] } where
  latestFrame := h.latestFrame
  started := by simp [h.started]
  emitted := by
    have hcount : completions s.events ≤ hist.sent.length := h.started ▸ htrace.completions_le_starts
    have hemitted := h.emitted
    rw [State.inFlight_stopped (hinv.stopped ht)] at hemitted
    simpa [State.inFlight, List.take_append_of_le_length hcount] using hemitted
  inFlightIsStaged := fun _ => List.getLast?_concat

/-- INIT comes before anything is on the output history (R90, R119). -/
theorem State.Follows.supplied (h : s.Follows hist) (htrace : s.TraceOfFrames) (hv : s.chanValid = false)
    (ch : Chan) : (s.supplyChannel ch).Follows hist :=
  have hsilent := htrace.silentBeforeInit hv
  have hnone := List.map_eq_nil_iff.mp (h.emitted.symm.trans hsilent)
  { h with emitted := hsilent.trans (congrArg (List.map _) hnone).symm }

/-- A PLAY_STEP emits the next entry of the frame on the channel (R113, R117). -/
theorem State.Follows.played (h : s.Follows hist) (hinv : s.Inv) (hp : s.pstate = .playing)
    (hpos : s.ppos < s.plen) :
    (s.playEntry (Level.ofByte (Memory.read s.buf s.ppos))).Follows hist :=
  { h with
    emitted := by
      obtain ⟨hplen, hpchan, -⟩ := hinv.playback hp
      simp [State.inFlight_playEntry hp (hplen ▸ hpos), h.emitted, hpchan] }

/-- A playback whose every entry has been played has emitted the whole of what is staged (R117). -/
theorem State.Follows.inFlight_due (h : s.Follows hist) (hinv : s.Inv) (hp : s.pstate = .playing)
    (hpos : s.ppos = s.plen) : s.inFlight = emission s.cfg hist.staged := by
  obtain ⟨hplen, -⟩ := hinv.playback hp
  rw [State.inFlight_playing hp, hpos, hplen, ← s.length_frameRegion, List.take_length, h.latestFrame, emission]

/-- While a playback is in flight, what is sent is what the completed ones sent, then what is staged. -/
theorem State.Follows.sent_playing (h : s.Follows hist) (htrace : s.TraceOfFrames) (hp : s.pstate = .playing) :
    ∃ sent, hist.sent = sent ++ [hist.staged] ∧ completions s.events = sent.length := by
  obtain ⟨sent, hsent⟩ := List.getLast?_eq_some_iff.mp (h.inFlightIsStaged hp)
  have honce := htrace.exactlyOnce
  rw [← h.started, hsent, if_pos hp, List.length_append] at honce
  exact ⟨sent, hsent, (Nat.add_right_cancel honce).symm⟩

/-- A due completion: the emission in flight becomes the last of the whole ones (R137). -/
theorem State.Follows.completed (h : s.Follows hist) (hinv : s.Inv) (htrace : s.TraceOfFrames)
    (hp : s.pstate = .playing) (hpos : s.ppos = s.plen) : s.takeCompletion.Follows hist :=
  { h with
    started := by simp [h.started]
    emitted := by
      obtain ⟨sent, hsent, hcount⟩ := h.sent_playing htrace hp
      have hemitted := h.emitted
      rw [h.inFlight_due hinv hp hpos, hcount, hsent, List.take_left] at hemitted
      have hall : (sent ++ [hist.staged]).take (sent.length + 1) = sent ++ [hist.staged] :=
        List.take_of_length_le (by simp)
      rw [State.inFlight_stopped (s := s.takeCompletion) rfl, State.takeCompletion_events,
        completions_append_complete, hcount, hsent, hall]
      simpa using hemitted
    inFlightIsStaged := nofun }

/-- Process start: nothing staged, nothing sent (R26). -/
theorem State.resetWith_follows (c : Config) : (State.resetWith c).Follows .start where
  latestFrame := by simp [State.frameRegion, stagedFrame, History.start, List.eq_replicate_iff]
  started := rfl
  emitted := rfl
  inFlightIsStaged := nofun

theorem State.afterReset_follows (s : State) : s.afterReset.Follows .start :=
  { State.resetWith_follows s.cfg with emitted := rfl }

theorem Effect.follows (heff : Effect s i t) (hinv : s.Inv) (htrace : s.TraceOfFrames) (h : s.Follows hist) :
    t.Follows (hist.after i s) := by
  cases heff with
  | answered => exact { h with }
  | held r ht => rw [History.after_held ht]; exact { h with }
  | encoded id ht => rw [History.after_update ht]; exact h.encoded hinv ht _
  | started ht => rw [History.after_transmit ht]; exact h.transmitted hinv htrace ht
  | supplied ch hv => exact h.supplied htrace hv ch
  | wiped => exact s.afterReset_follows
  | played hp hpos => exact h.played hinv hp hpos
  | completed hp hpos => exact h.completed hinv htrace hp hpos

/-- Settles O52: the state an operation acts on follows the history its move found, and the operation keeps it so. -/
theorem stepFollowsTheHistory : Obligations.StepFollowsTheHistory := by
  intro s t hist hinv htrace h hstep
  obtain ⟨hnil, rfl⟩ | ⟨m, i, u, hhead, hfetch, heff⟩ := step_effect hstep
  · rw [History.next_nil hnil]
    exact h
  · rw [History.next_of_fetch hhead hfetch]
    obtain rfl | rfl := fetch_acts_on hfetch
    · exact heff.follows hinv.popMove htrace.popMove h.popMove
    · exact heff.follows hinv.popMove.releaseHold htrace.popMove.releaseHold h.popMove.releaseHold

end Sys2Proof.Machine
end

section
/-! Reset, and every state a run reaches (R26, R145, R166): reset states follow the empty history, and a state that
follows a history has an output history of whole emissions. -/

namespace Sys2Proof.Machine

variable {s t : State} {i : Instr} {hist : History}

/-- R166: the emissions of the codes sent are the whole emissions that the shape of the output history asks for. -/
theorem State.Follows.traceOfFrames (h : s.Follows hist) (hsilent : s.chanValid = false → s.trace = [])
    (honce : starts s.events = completions s.events + (if s.pstate = .playing then 1 else 0)) :
    s.TraceOfFrames where
  emissions := by
    have hcount : completions s.events ≤ hist.sent.length := by rw [h.started, honce]; exact Nat.le_add_right _ _
    refine ⟨(hist.sent.take (completions s.events)).map (emission s.cfg), by simpa using hcount, ?_, ?_⟩
    · intro f hf
      obtain ⟨staged, -, rfl⟩ := List.mem_map.mp hf
      exact isEmission_emission s.cfg staged
    · rw [← List.flatMap_def]
      exact h.emitted
  silentBeforeInit := hsilent
  exactlyOnce := honce

theorem State.resetWith_inv (c : Config) : (State.resetWith c).Inv :=
  { (State.resetWith c).afterReset_inv with
    positionInRange := ⟨Nat.le_refl _, Nat.zero_le _⟩
    playback := nofun
    darkAtRest := fun _ => rfl
    slotLevel := nofun
    handles := ⟨ChanType.has_zero _, ChanType.has_zero _⟩ }

theorem State.resetWith_traceOfFrames (c : Config) : (State.resetWith c).TraceOfFrames :=
  (State.resetWith_follows c).traceOfFrames (fun _ => rfl) rfl

theorem State.afterReset_traceOfFrames (s : State) : s.afterReset.TraceOfFrames :=
  s.afterReset_follows.traceOfFrames (fun _ => rfl) rfl

theorem Effect.traceOfFrames (heff : Effect s i t) (hinv : s.Inv) (htrace : s.TraceOfFrames)
    (h : s.Follows hist) : t.TraceOfFrames :=
  (heff.follows hinv htrace h).traceOfFrames (heff.silentBeforeInit hinv htrace)
    (heff.exactlyOnce hinv htrace)

theorem step_traceOfFrames (hinv : s.Inv) (htrace : s.TraceOfFrames) (h : s.Follows hist)
    (hstep : step s = .next t) : t.TraceOfFrames := by
  obtain ⟨-, rfl⟩ | ⟨m, i, u, -, hfetch, heff⟩ := step_effect hstep
  · exact htrace
  · obtain rfl | rfl := fetch_acts_on hfetch
    · exact heff.traceOfFrames hinv.popMove htrace.popMove h.popMove
    · exact heff.traceOfFrames hinv.popMove.releaseHold htrace.popMove.releaseHold h.popMove.releaseHold

/-- The induction over a run: the four facts hold at process start, and a step keeps them together. -/
theorem Reachable.invariants {c : Config} (hreach : Reachable c hist s) :
    s.cfg = c ∧ s.Inv ∧ s.TraceOfFrames ∧ s.Follows hist := by
  induction hreach with
  | start script =>
    exact ⟨rfl, { State.resetWith_inv c with }, { State.resetWith_traceOfFrames c with },
      { State.resetWith_follows c with }⟩
  | step _ hstep ih =>
    obtain ⟨hcfg, hinv, htrace, hfollows⟩ := ih
    exact ⟨(stepKeepsTheConfiguration _ _ hstep).trans hcfg, stepKeepsTheInvariants _ _ hinv hstep,
      step_traceOfFrames hinv htrace hfollows hstep, stepFollowsTheHistory _ _ _ hinv htrace hfollows hstep⟩

/-- Settles O53: I-4 is the first clause of `State.Follows`. -/
theorem reachableStatesFollowTheirHistory : Obligations.ReachableStatesFollowTheirHistory := by
  intro c hist s hreach
  obtain ⟨rfl, hinv, htrace, hfollows⟩ := hreach.invariants
  exact ⟨rfl, hinv, htrace, hfollows, hfollows.latestFrame⟩

/-- Settles O39: both reset states hold the values of R26 and follow the empty history. -/
theorem invariantsHoldAfterReset : Obligations.InvariantsHoldAfterReset := by
  refine ⟨fun c => ⟨State.resetWith_inv c, State.resetWith_traceOfFrames c⟩, fun s t hreset => ?_⟩
  rw [exec_reset] at hreset
  cases hreset
  exact ⟨s.afterReset_inv, s.afterReset_traceOfFrames⟩

/-- Settles O32: the free values `plen` and `ppos` are the ones drawn within R18. -/
theorem resetFromAnyState : Obligations.ResetFromAnyState := by
  intro s
  obtain ⟨hppos, hplen⟩ := forgetPlayback_positionInRange s
  exact ⟨s.afterReset, exec_reset, fun _ => rfl, rfl, rfl, rfl, rfl, rfl, rfl, rfl, rfl, rfl,
    hppos, hplen, rfl, rfl⟩

/-- Settles O33: `State.resetWith` names every value R26 gives. -/
theorem processStart : Obligations.ProcessStart :=
  ⟨rfl, fun _ => ⟨fun _ => rfl, rfl, rfl, rfl, rfl, rfl, rfl, rfl, rfl, rfl⟩⟩

end Sys2Proof.Machine
end

section
/-! One blocking request at a time (R19, R133, R160, R162). -/

namespace Sys2Proof.Machine

variable {s : State}

/-- Both requests that can be held begin with the same hold (R96). -/
theorem exec_request_instr_outstanding (r : Request) (hp : s.pending ≠ none) :
    exec r.instr s = .refused .requestOutstanding := by
  cases r with
  | update id =>
    exact holdUntilIdle_outstanding (r := .update id) (body := fun s => Answer.ofExcept (runEncode id s)) hp
  | transmit => exact holdUntilIdle_outstanding (r := .transmit) (body := transmitBody) hp

theorem mayBlock_request_instr (r : Request) : mayBlock r.instr = true := by cases r <;> rfl

/-- The completion context may not present an operation that can be held (R133, R156). -/
theorem takeMove_completion_blocking {w : Nat} {i : Instr} (hdecode : decode s.cfg (.request w) = .ok i)
    (hblock : mayBlock i = true) :
    takeMove (.request .completion w) s = .refused .blockingInCompletionContext := by
  simp [takeMove, fetch, fetchRequest, fetchSignal, hdecode, hblock]

/-- Settles O25: the hold refuses the second request, the fetch refuses the context. -/
theorem oneBlockingRequestAtATime : Obligations.OneBlockingRequestAtATime := by
  intro s r
  refine ⟨exec_request_instr_outstanding r, fun w rest hscript hdecode => ?_⟩
  rw [step_cons hscript]
  exact takeMove_completion_blocking hdecode (mayBlock_request_instr r)

end Sys2Proof.Machine
end

section
/-! Access to one entry, and its two faults (R33, R36, R39, R128): the access itself, ENCODE while Busy, and
PLAY_STEP, the one reader. -/

namespace Sys2Proof.Machine

variable {s t : State} {i : Instr}

theorem memRead_outOfRange {a : Nat} (ha : s.cfg.cap ≤ a) : memRead s a = .error .bufferIndexOutOfRange := by
  simp [memRead, Nat.not_lt.mpr ha]

/-- Settles O10: each clause is a law of `memWrite` or of `memRead`, with the laws of `Memory.write`. -/
theorem oneEntryAccess : Obligations.OneEntryAccess := by
  intro s a v hwf
  refine ⟨fun ht => memWrite_busy ht a v, fun ht ha => memWrite_outOfRange ht ha v, fun ht ha => ?_,
    memRead_ok, memRead_outOfRange⟩
  exact ⟨s.storeByte a v, memWrite_idle ht ha v, rfl, Memory.wf_write hwf a v, Memory.read_write_same hwf a v,
    fun b hb => Memory.read_write_other hwf hb v⟩

/-- A run of at least one entry meets the fault at its first write. -/
theorem emit_busy (ht : s.tstate = .busy) {n : Nat} (hn : 1 ≤ n) (v : Byte) :
    emit n v s = .error .bufferWriteWhileBusy := by
  obtain ⟨k, rfl⟩ := Nat.exists_eq_add_of_le' hn
  rw [emit, storeEntry_busy ht]
  rfl

/-- The header begins with `P0` on entries, and `P0` is at least 1 (R6, R74). -/
theorem phaseHeader_busy (ht : s.tstate = .busy) : phaseHeader s = .error .bufferWriteWhileBusy := by
  obtain ⟨hp0, -⟩ := s.cfg.valid
  rw [phaseHeader, emit_busy ht hp0]
  rfl

theorem runEncode_busy (ht : s.tstate = .busy) (id : TransponderId) :
    runEncode id s = .error .bufferWriteWhileBusy := by
  have hheader : phaseHeader (phaseCode id s).2 = .error .bufferWriteWhileBusy := phaseHeader_busy ht
  rw [runEncode, hheader]
  rfl

/-- Settles O18: ENCODE is its run, and the run faults in phase HEADER. -/
theorem encodeWhileBusyFaults : Obligations.EncodeWhileBusyFaults :=
  fun _ id ht => congrArg Answer.ofExcept (runEncode_busy ht id)

theorem exec_playStep_playing (hp : s.pstate = .playing) (hpos : s.ppos < s.plen) (hcap : s.plen ≤ s.cfg.cap) :
    exec .playStep s = .next (s.playEntry (Level.ofByte (Memory.read s.buf s.ppos))) := by
  show execPlayStep s = _
  rw [execPlayStep, if_pos ⟨hp, hpos⟩, memRead_ok (Nat.lt_of_lt_of_le hpos hcap)]
  rfl

theorem exec_playStep_notEnabled (h : ¬(s.pstate = .playing ∧ s.ppos < s.plen)) :
    exec .playStep s = .refused .playStepNotEnabled := if_neg h

/-- OFF is shown for two reasons, the end of the playback and an entry 0 (R113, R114). -/
theorem State.playEntry_ofByte (s : State) (e : Byte) : s.playEntry (Level.ofByte e) =
    { s with
      tx := if s.ppos + 1 = s.plen ∨ e = 0 then .off else .on
      trace := s.trace ++ [(s.pchan, if e = 0 then .off else .on)]
      ppos := s.ppos + 1 } := by
  by_cases hlast : s.ppos + 1 = s.plen <;> simp [State.playEntry, Level.ofByte, hlast]

/-- Settles O27: PLAY_STEP's two laws, its state written out field by field. -/
theorem playStepPlaysOneEntry : Obligations.PlayStepPlaysOneEntry := by
  intro s
  refine ⟨fun hp hpos hcap => ?_, fun hnone => exec_playStep_notEnabled fun ⟨hp, hpos⟩ => ?_⟩
  · rw [exec_playStep_playing hp hpos hcap, State.playEntry_ofByte]
  · obtain hstop | hend := hnone
    · exact absurd (hp.symm.trans hstop) (by decide)
    · exact Nat.not_lt.mpr hend hpos

end Sys2Proof.Machine
end

section
/-! What every step keeps of the buffer, and that none faults (R30, R33, R104, R128). -/

namespace Sys2Proof.Machine

variable {s t : State} {i : Instr} {f : Fault}

/-- Two effects write the buffer: UPDATE's ENCODE stores entries one by one, RESET leaves none. -/
theorem Effect.wf_buf (h : Effect s i t) (hwf : Memory.wf s.buf) : Memory.wf t.buf := by
  cases h with
  | encoded id => exact wf_storeAll hwf 0 _
  | wiped => exact Memory.wf_nil
  | _ => exact hwf

/-- Settles O38: fetching an operation leaves the buffer, and its effect keeps the form. -/
theorem stepKeepsTheBufferCanonical : Obligations.StepKeepsTheBufferCanonical := by
  intro s t hwf hstep
  obtain ⟨-, rfl⟩ | ⟨m, i, u, -, hfetch, heff⟩ := step_effect hstep
  · exact hwf
  · refine heff.wf_buf ?_
    obtain rfl | rfl := fetch_acts_on hfetch <;> exact hwf

theorem holdUntilIdle_ne_fault {r : Request} {body : State → Answer}
    (hbody : s.tstate = .idle → body s ≠ .fault f) : holdUntilIdle r body s ≠ .fault f := by
  by_cases hp : s.pending = none
  · cases ht : s.tstate with
    | busy => simp [holdUntilIdle_busy hp ht]
    | idle => exact holdUntilIdle_idle hp ht ▸ hbody ht
  · simp [holdUntilIdle_outstanding hp]

theorem transmitBody_ne_fault : transmitBody s ≠ .fault f := by
  unfold transmitBody
  split <;> nofun

/-- Of the operations only ENCODE and PLAY_STEP can fault: UPDATE runs ENCODE while Idle, where it completes, and
PLAY_STEP reads below `plen`, which is at most CAP (R18, R33). -/
theorem exec_ne_fault (hencode : ∀ id, i ≠ .encode id) (hplen : s.plen ≤ s.cfg.cap) : exec i s ≠ .fault f := by
  cases i with
  | isready => nofun
  | update id =>
    refine holdUntilIdle_ne_fault (r := .update id) (body := fun s => Answer.ofExcept (runEncode id s)) fun ht => ?_
    simp [runEncode_idle ht]
  | transmit => exact holdUntilIdle_ne_fault fun _ => transmitBody_ne_fault
  | reservedOp3 => nofun
  | init ch =>
    show execInit ch s ≠ _
    unfold execInit
    split <;> nofun
  | reset => nofun
  | encode id => exact absurd rfl (hencode id)
  | startPlayback n ch =>
    show execStartPlayback n ch s ≠ _
    unfold execStartPlayback
    split <;> nofun
  | playStep =>
    by_cases h : s.pstate = .playing ∧ s.ppos < s.plen
    · obtain ⟨hp, hpos⟩ := h
      simp [exec_playStep_playing hp hpos hplen]
    · simp [exec_playStep_notEnabled h]
  | complete =>
    show execComplete s ≠ _
    unfold execComplete
    split
    · nofun
    · split <;> nofun

/-- No move is an ENCODE of its own: the decoder knows none, and none is held. -/
theorem fetch_ne_encode {m : Move} {u : State} (h : fetch m s = .ok (i, u)) (id : TransponderId) :
    i ≠ .encode id := by
  obtain ⟨-, -, hencode, -⟩ | ⟨r, -, -, -, rfl, -⟩ := fetch_ok h
  · exact hencode id
  · obtain ⟨hencode, -⟩ := request_instr_ne_internal r
    exact hencode id

theorem takeMove_ne_fault {m : Move} (hplen : s.plen ≤ s.cfg.cap) : takeMove m s ≠ .fault f := by
  cases hfetch : fetch m s with
  | error r => simp [takeMove, hfetch]
  | ok iu =>
    obtain ⟨i, u⟩ := iu
    rw [takeMove_of_fetch hfetch]
    refine exec_ne_fault (fetch_ne_encode hfetch) ?_
    obtain rfl | rfl := fetch_acts_on hfetch <;> exact hplen

/-- Settles O42: of the invariants it takes only R18's bound on `plen`. -/
theorem stepNeverFaults : Obligations.StepNeverFaults := by
  intro s f h
  cases hscript : s.script with
  | nil => simp [step_nil hscript]
  | cons m rest =>
    obtain ⟨-, hplen⟩ := h.positionInRange
    rw [step_cons hscript]
    exact takeMove_ne_fault hplen

end Sys2Proof.Machine
end

section
/-! The step as its next move's operation (R41, R131, R115). -/

namespace Sys2Proof.Machine

variable {s : State} {i : Instr}

theorem fetchSignal_of_decode {sig : Signal} (h : decode s.cfg sig = .ok i) : fetchSignal s sig = .ok (i, s) := by
  rw [fetchSignal, h]

/-- The context matters only to an operation that can be held (R133). -/
theorem fetch_request_of_decode {ctx : Context} {w : Nat} (h : decode s.cfg (.request w) = .ok i)
    (hctx : ctx = .completion → mayBlock i = false) : fetch (.request ctx w) s = .ok (i, s) := by
  show fetchRequest s ctx w = _
  rw [fetchRequest, fetchSignal_of_decode h]
  refine if_neg fun ⟨hcompletion, hblock⟩ => ?_
  simp [hctx hcompletion] at hblock

/-- A move whose operation acts on the state as it is: the step is that operation, the move taken off the schedule. -/
theorem step_of_fetch {m : Move} {rest : List Move} (hscript : s.script = m :: rest)
    (hfetch : fetch m { s with script := rest } = .ok (i, { s with script := rest })) :
    step s = exec i { s with script := rest } := by
  have hpop : s.popMove = { s with script := rest } := by rw [State.popMove, hscript, List.tail_cons]
  rw [step_cons hscript, hpop, takeMove_of_fetch hfetch]

/-- Settles O35: for each kind of move, the operation `fetch` gives it. -/
theorem stepRunsTheNextMove : Obligations.StepRunsTheNextMove := by
  intro s rest
  refine ⟨fun ctx w i hscript hdecode hctx => ?_, fun ch hscript hch => ?_, fun hscript => ?_, fun hscript => ?_,
    fun hscript hp hpos => ?_, step_nil⟩
  · refine step_of_fetch hscript (fetch_request_of_decode hdecode fun hcompletion => ?_)
    obtain rfl | rfl | rfl := hctx
    · cases hcompletion
    · rfl
    · rfl
  · exact step_of_fetch hscript (fetchSignal_of_decode (if_pos hch))
  · exact step_of_fetch hscript rfl
  · exact step_of_fetch hscript rfl
  · exact step_of_fetch hscript (if_pos ⟨hp, hpos⟩)

end Sys2Proof.Machine
end

section
/-! The port signals (R60 to R65): what the decoder reads from a request word, by its `op` bits and byte by byte, and
that it reads back what the encoder writes. -/

namespace Sys2Proof.Machine

variable {n w op f : Nat} {c : Config}

/-! ## The bytes of a word -/

@[simp] theorem length_unpackBytes (n w : Nat) : (unpackBytes n w).length = n := by
  induction n generalizing w with
  | zero => rfl
  | succ n ih => simp [unpackBytes, ih]

/-- R60: byte `i` is bits `8*i+7 .. 8*i`. -/
theorem getElem?_unpackBytes {i : Nat} (h : i < n) :
    (unpackBytes n w)[i]? = some (BitVec.ofNat 8 (w / 2 ^ (8 * i))) := by
  induction n generalizing w i with
  | zero => omega
  | succ n ih =>
    cases i with
    | zero => simp [unpackBytes]
    | succ i =>
      have hpow : 256 * 2 ^ (8 * i) = 2 ^ (8 * (i + 1)) := by rw [Nat.mul_add, Nat.pow_add, Nat.mul_comm]
      rw [unpackBytes, List.getElem?_cons_succ, ih (by omega), Nat.div_div_eq_div_mul, hpow]

/-- Whatever stands above the packed bytes, they are read back. -/
theorem unpackBytes_packBytes (op : Nat) (bs : List Byte) :
    unpackBytes bs.length (op * 2 ^ (8 * bs.length) + packBytes bs) = bs := by
  induction bs with
  | nil => rfl
  | cons b bs ih =>
    have hword : op * 2 ^ (8 * (bs.length + 1)) + (b.toNat + 256 * packBytes bs)
        = b.toNat + 256 * (op * 2 ^ (8 * bs.length) + packBytes bs) := by
      rw [Nat.mul_add, Nat.pow_add]; ring
    have hb : b.toNat < 256 := b.isLt
    rw [List.length_cons, packBytes, hword, unpackBytes, Nat.add_mul_div_left _ _ (by decide),
      Nat.div_eq_of_lt hb, Nat.zero_add, ih]
    congr 1
    exact BitVec.eq_of_toNat_eq (by simpa using hb)

theorem idOfBytes_bytes (id : TransponderId) : idOfBytes id.bytes = some id := rfl

theorem exists_idOfBytes : ∀ {bs : List Byte}, 6 ≤ bs.length → ∃ id, idOfBytes bs = some id ∧ id.bytes = bs
  | b0 :: b1 :: b2 :: b3 :: b4 :: b5 :: rest, _ => ⟨⟨b0, b1, b2, b3, b4, b5, rest⟩, rfl, rfl⟩

theorem wellFormed_iff_length_bytes {id : TransponderId} :
    id.wellFormed c = true ↔ id.bytes.length = c.idLen := by
  simp [TransponderId.wellFormed, TransponderId.bytes]

/-! ## The `op` bits of a word -/

theorem lt_of_op (hop : w / 2 ^ (8 * n) = op) (h4 : op < 4) : w < 2 ^ (8 * n + 2) := by
  rw [Nat.pow_add, Nat.mul_comm]
  exact Nat.lt_mul_of_div_lt (by omega) (Nat.two_pow_pos _)

theorem op_cases (hw : w < 2 ^ (8 * n + 2)) : w / 2 ^ (8 * n) = 0 ∨ w / 2 ^ (8 * n) = 1 ∨
    w / 2 ^ (8 * n) = 2 ∨ w / 2 ^ (8 * n) = 3 := by
  have hop : w / 2 ^ (8 * n) < 4 := Nat.div_lt_of_lt_mul (by rwa [Nat.pow_add] at hw)
  generalize w / 2 ^ (8 * n) = op at hop ⊢
  omega

theorem op_requestWord (hf : f < 2 ^ (8 * n)) : requestWord n op f / 2 ^ (8 * n) = op := by
  rw [requestWord, Nat.mul_comm, Nat.mul_add_div (Nat.two_pow_pos _), Nat.div_eq_of_lt hf, Nat.add_zero]

theorem decodeRequest_isready (hop : w / 2 ^ (8 * n) = 0) : decodeRequest n w = .ok .isready := by
  simp [decodeRequest, lt_of_op hop, hop]

theorem decodeRequest_update {id : TransponderId} (hop : w / 2 ^ (8 * n) = 1)
    (hid : idOfBytes (unpackBytes n w) = some id) : decodeRequest n w = .ok (.update id) := by
  simp [decodeRequest, lt_of_op hop, hop, hid]

theorem decodeRequest_transmit (hop : w / 2 ^ (8 * n) = 2) : decodeRequest n w = .ok .transmit := by
  simp [decodeRequest, lt_of_op hop, hop]

theorem decodeRequest_reservedOp3 (hop : w / 2 ^ (8 * n) = 3) : decodeRequest n w = .ok .reservedOp3 := by
  simp [decodeRequest, lt_of_op hop, hop]

/-- UPDATE's word carries the identifier below the `op` bits (R60). -/
theorem decodeRequest_requestWord_update {id : TransponderId} (hid : id.bytes.length = n) :
    decodeRequest n (requestWord n 1 (packBytes id.bytes)) = .ok (.update id) := by
  subst hid
  refine decodeRequest_update (op_requestWord (Laws.packBytes_lt _)) ?_
  rw [requestWord, unpackBytes_packBytes, idOfBytes_bytes]

/-- R7: a length the buffer can hold fits `CURSOR_W` bits. -/
theorem lt_two_pow_cursorW {len : Nat} (h : len ≤ c.cap) : len < 2 ^ c.cursorW :=
  Nat.lt_of_le_of_lt h Nat.lt_log2_self

/-- Settles O1, operation by operation: a request's `op` bits select it and UPDATE's bytes are read back; an event's
signal carries its operands as they are. -/
theorem decodeEncodeRoundTrip : Obligations.DecodeEncodeRoundTrip := by
  intro c i sig hwf henc
  have hzero : 0 < 2 ^ (8 * c.idLen) := Nat.two_pow_pos _
  cases i with
  | isready => cases henc; exact decodeRequest_isready (op_requestWord hzero)
  | update id =>
    cases henc
    exact decodeRequest_requestWord_update (wellFormed_iff_length_bytes.mp hwf)
  | transmit => cases henc; exact decodeRequest_transmit (op_requestWord hzero)
  | reservedOp3 => cases henc; exact decodeRequest_reservedOp3 (op_requestWord hzero)
  | init ch => cases henc; exact if_pos hwf
  | reset => cases henc; rfl
  | encode id => cases henc
  | startPlayback len ch =>
    cases henc
    obtain ⟨hlen, hch⟩ : len ≤ c.cap ∧ c.chanType.has ch = true := by simpa [Instr.wellFormed] using hwf
    rw [decode, if_neg (Nat.not_le.mpr (lt_two_pow_cursorW hlen)), if_pos hch]
  | playStep => cases henc
  | complete => cases henc; rfl

/-- Settles O2: the word is below `2 ^ requestBits`, so its `op` is one of four. -/
theorem requestWordDecodesByOpBits : Obligations.RequestWordDecodesByOpBits := by
  intro c w hw
  obtain h | h | h | h := op_cases hw
  · exact .inl ⟨h, decodeRequest_isready h⟩
  · obtain ⟨-, -, -, hidLen, -⟩ := c.valid
    obtain ⟨id, hid, hbytes⟩ := exists_idOfBytes (bs := unpackBytes c.idLen w) (by simpa using hidLen)
    refine .inr (.inl ⟨h, id, decodeRequest_update h hid, ?_, fun i hi => ?_⟩)
    · exact wellFormed_iff_length_bytes.mpr (by simp [hbytes])
    · rw [hbytes, getElem?_unpackBytes hi]
  · exact .inr (.inr (.inl ⟨h, decodeRequest_transmit h⟩))
  · exact .inr (.inr (.inr ⟨h, decodeRequest_reservedOp3 h⟩))

/-- Settles O3: the decoder evaluated on each word. -/
theorem specWordsDecode : Obligations.SpecWordsDecode := ⟨rfl, rfl, rfl, rfl, rfl, rfl⟩

/-! ## A word as the next move -/

/-- Settles O23: the word's `op` bits are 3, and the operation they select cannot be held, so either context may present
it. -/
theorem reservedOpcodeIsRefused : Obligations.ReservedOpcodeIsRefused := by
  intro s
  refine ⟨rfl, fun ctx w rest hscript hw => ?_⟩
  have hdecode : decode s.popMove.cfg (.request (requestWord s.cfg.idLen 3 w)) = .ok .reservedOp3 :=
    decodeRequest_reservedOp3 (op_requestWord hw)
  rw [step_cons hscript, takeMove_of_fetch (fetch_request_of_decode hdecode fun _ => rfl)]
  rfl

theorem decodeTableWord_eq_some {nbits : Nat} {i : Instr} (h : decodeTableWord nbits w = some i) :
    decodeRequest tableIdLen (w % 2 ^ nbits) = .ok i := by
  unfold decodeTableWord at h
  split at h
  · next hdecode => cases h; exact hdecode
  · cases h

theorem popMove_withFetchWord (s : State) (nbits w : Nat) : (s.withFetchWord nbits w).popMove = s.withTablePort := rfl

theorem withTablePort_eq_self (h : c.idLen = tableIdLen) : c.withTablePort = c := by
  obtain ⟨⟨⟩⟩ := c
  cases h
  rfl

/-- Settles O36: the word is the caller's, who may present any request, and taking it off the schedule leaves the state
with the table's port. -/
theorem fetchWordIsRunNext : Obligations.FetchWordIsRunNext := by
  intro s nbits w i hi
  refine ⟨?_, fun h => by rw [State.withTablePort, withTablePort_eq_self h]⟩
  have hdecode : decode s.withTablePort.cfg (.request (w % 2 ^ nbits)) = .ok i := decodeTableWord_eq_some hi
  rw [step_cons (State.withFetchWord_script s nbits w), popMove_withFetchWord,
    takeMove_of_fetch (fetch_request_of_decode hdecode (by simp))]

end Sys2Proof.Machine
end

section
/-! The code of an identifier (R51): its four forms, and that ENCODE reads nothing else of the identifier. -/

namespace Sys2Proof.Machine

theorem codeOf_eq_xor (raw : Byte) : codeOf raw = raw.setWidth 6 ^^^ 0x3F := by
  have hones : (0x3F : Code) = BitVec.allOnes 6 := rfl
  rw [hones, BitVec.xor_allOnes, codeOf, BitVec.setWidth_not (by decide)]

theorem codeOf_eq_masked (raw : Byte) : codeOf raw = (~~~raw &&& 0x3F).setWidth 6 := by
  have hones : (0x3F : Byte).setWidth 6 = BitVec.allOnes 6 := rfl
  rw [BitVec.setWidth_and, hones, BitVec.and_allOnes, codeOf]

theorem toNat_codeOf (raw : Byte) : (codeOf raw).toNat = 63 - raw.toNat % 64 := by
  have hraw : raw.toNat < 256 := raw.isLt
  simp only [codeOf, BitVec.toNat_setWidth, BitVec.toNat_not]
  omega

/-- ENCODE reads the identifier once, in phase CODE (R73). -/
theorem runEncode_congr {id id' : TransponderId} (h : codeOf id.b5 = codeOf id'.b5) (s : State) :
    runEncode id s = runEncode id' s := by
  rw [runEncode, runEncode, phaseCode, phaseCode, h]

/-- Settles O5: six bits of byte 5 fix the code, and the code is all that ENCODE takes from the identifier. -/
theorem codeIsComplementOfSixBits : Obligations.CodeIsComplementOfSixBits := by
  refine ⟨fun raw => ⟨rfl, toNat_codeOf raw, codeOf_eq_masked raw, codeOf_eq_xor raw⟩, fun id id' s hbits => ?_⟩
  have hcode : codeOf id.b5 = codeOf id'.b5 := by rw [codeOf_eq_xor, codeOf_eq_xor, hbits]
  exact congrArg Answer.ofExcept (runEncode_congr hcode s)

end Sys2Proof.Machine
end

section
/-! The length of a frame before its padding, by the number of long runs (R55, R58, R82). -/

namespace Sys2Proof.Machine

variable (c : Config) (code : Code)

/-- R58: rounding the number of 1 bits up to even counts the parity run too, where it is long. -/
theorem used_eq_popcount : used c code = (9 - (popcount code + popcount code % 2)) * c.p0
    + (popcount code + popcount code % 2) * c.p1 := by
  have hn := popcount_le_six code
  rw [used, sum_dataLength, parityRun]
  generalize popcount code = n at hn ⊢
  interval_cases n <;> simp <;> omega

theorem popcount_eq_zero_iff : ∀ code : Code, popcount code = 0 ↔ code = 0 := by decide

/-- Settles O8: the closed form decides each clause, for each of the seven numbers of 1 bits. -/
theorem usedLengthByPopcount : Obligations.UsedLengthByPopcount := by
  intro c code
  obtain ⟨hp0, hp, -⟩ := c.valid
  have hn := popcount_le_six code
  have hused := used_eq_popcount c code
  refine ⟨hused, used_le_worst c code, ?_⟩
  rw [← popcount_eq_zero_iff, hused, Params.worst]
  generalize popcount code = n at hn ⊢
  interval_cases n <;> simp <;> omega

end Sys2Proof.Machine
end

section
/-! The runs of a frame (R50, R57) and reading them back (R59). -/

namespace Sys2Proof.Machine

/-! ## Runs of levels -/

/-- The levels a list of runs stands for. -/
def levelsOf (rs : List (Level × Nat)) : List Level := rs.flatMap fun r => List.replicate r.2 r.1

/-- A run in front of a list that begins with another level is maximal. -/
theorem runsOf_replicate_append {l : Level} {ls : List Level} (h : ∀ r ∈ (runsOf ls).head?, l ≠ r.1) (n : Nat) :
    runsOf (List.replicate (n + 1) l ++ ls) = (l, n + 1) :: runsOf ls := by
  induction n with
  | zero =>
    rw [List.replicate_one, List.singleton_append, runsOf]
    cases hr : runsOf ls with
    | nil => rfl
    | cons r rs => exact if_neg (h r (by simp [hr]))
  | succ n ih => rw [List.replicate_succ, List.cons_append, runsOf, ih]; exact if_pos rfl

/-- Nonempty runs whose levels alternate are the maximal runs of what they stand for. -/
theorem runsOf_levelsOf {rs : List (Level × Nat)} (hpos : ∀ r ∈ rs, 0 < r.2)
    (halt : (rs.map (·.1)).IsChain (· ≠ ·)) : runsOf (levelsOf rs) = rs := by
  induction rs with
  | nil => rfl
  | cons r rs ih =>
    obtain ⟨hhead, htail⟩ := List.isChain_cons.mp halt
    have hrs : runsOf (levelsOf rs) = rs := ih (fun q hq => hpos q (List.mem_cons_of_mem _ hq)) htail
    obtain ⟨n, hn⟩ : ∃ n, r.2 = n + 1 := Nat.exists_eq_succ_of_ne_zero (hpos r List.mem_cons_self).ne'
    have hne : ∀ q ∈ (runsOf (levelsOf rs)).head?, r.1 ≠ q.1 := by
      rw [hrs]
      exact fun q hq => hhead q.1 (by simp [Option.mem_def.mp hq])
    rw [levelsOf, List.flatMap_cons, hn, ← levelsOf, runsOf_replicate_append hne, hrs, ← hn]

/-! ## The runs of a frame -/

section Frame
variable (c : Config) (code : Code)

theorem ofByte_onMark : Level.ofByte c.onMark = .on := by
  obtain ⟨-, -, hmark, -⟩ := c.valid
  exact if_neg hmark

theorem ofByte_zero : Level.ofByte 0 = .off := rfl

/-- R31: writing a level and playing it. -/
theorem ofByte_levelByte (l : Level) : Level.ofByte (levelByte c l) = l := by
  cases l with
  | on => exact ofByte_onMark c
  | off => rfl

/-- The ten runs of a frame, as levels (R50). -/
def levelRuns : List (Level × Nat) :=
  [(.on, c.p0), (.off, c.p0)]
    ++ (List.range 6).map (fun k => (dataLevel k, dataLength c code k))
    ++ [(.on, parityRun c code), (.off, c.frameLen - used c code)]

theorem levelRuns_eq_map_frameRuns :
    levelRuns c code = (frameRuns c code).map fun r => (Level.ofByte r.1, r.2) := by
  simp only [levelRuns, frameRuns, dataByte, List.map_append, List.map_map, List.map_cons, List.map_nil,
    Function.comp_def, ofByte_levelByte, ofByte_onMark, ofByte_zero]

theorem map_ofByte_frame : (frame c code).map Level.ofByte = levelsOf (levelRuns c code) := by
  simp [frame, levelsOf, levelRuns_eq_map_frameRuns, List.map_flatMap, List.flatMap_map]

theorem runLength_pos (b : Bool) : 0 < runLength c b := by
  obtain ⟨hp0, hp, -⟩ := c.valid
  cases b <;> simp [runLength] <;> omega

theorem parityRun_eq_runLength : parityRun c code = runLength c (decide (popcount code % 2 = 1)) := by
  obtain h | h := Nat.mod_two_eq_zero_or_one (popcount code) <;> simp [parityRun, runLength, h]

theorem levelRuns_pos : ∀ r ∈ levelRuns c code, 0 < r.2 := by
  obtain ⟨hp0, -⟩ := c.valid
  have hpad : 0 < c.frameLen - used c code := Nat.sub_pos_of_lt (used_lt_frameLen c code)
  have hparity : 0 < parityRun c code := parityRun_eq_runLength c code ▸ runLength_pos c _
  have hdata : ∀ k, 0 < dataLength c code k := fun k => runLength_pos c (codeBit code k)
  simp only [levelRuns, List.forall_mem_append, List.forall_mem_cons, List.forall_mem_map]
  exact ⟨⟨⟨hp0, hp0, nofun⟩, fun k _ => hdata k⟩, hparity, hpad, nofun⟩

/-- R57: the data levels continue the alternation of the header, and parity and padding continue theirs. -/
theorem levelRuns_alternate : ((levelRuns c code).map (·.1)).IsChain (· ≠ ·) := by
  show List.IsChain (· ≠ ·) [Level.on, .off, .on, .off, .on, .off, .on, .off, .on, .off]
  decide

theorem runsOf_frame : runsOf ((frame c code).map Level.ofByte) = levelRuns c code := by
  rw [map_ofByte_frame, runsOf_levelsOf (levelRuns_pos c code) (levelRuns_alternate c code)]

end Frame

/-- Settles O6: the table of R50 is `levelRuns`, written out. -/
theorem frameHasTenAlternatingRuns : Obligations.FrameHasTenAlternatingRuns :=
  fun c code => ⟨length_frame c code, runsOf_frame c code⟩

/-! ## Reading a frame back -/

/-- The bits the data and parity runs convey, in transmit order (R54, R55). -/
def frameBits (code : Code) : List Bool := (List.range 6).map (codeBit code) ++ [decide (popcount code % 2 = 1)]

theorem lengths_conveying_frameBits (c : Config) (code : Code) :
    (((levelRuns c code).map (·.2)).drop 2).take 7 = (frameBits code).map (runLength c) := by
  rw [frameBits, List.map_append, List.map_singleton, ← parityRun_eq_runLength]
  rfl

/-- Because `P0 ≠ P1`, the length of a run gives its bit. -/
theorem bitOfRun_runLength (c : Config) (b : Bool) : bitOfRun c (runLength c b) = some b := by
  obtain ⟨-, hp, -⟩ := c.valid
  cases b with
  | false => exact if_pos rfl
  | true => exact (if_neg hp.ne').trans (if_pos rfl)

theorem mapM_bitOfRun_runLength (c : Config) (bits : List Bool) :
    (bits.map (runLength c)).mapM (bitOfRun c) = some bits := by
  induction bits with
  | nil => rfl
  | cons b bits ih => simp [bitOfRun_runLength, ih]

theorem foldl_xor_frameBits : ∀ code : Code, (frameBits code).foldl xor false = false := by decide

theorem codeOfBits_frameBits : ∀ code : Code, codeOfBits ((frameBits code).take 6) = code := by decide

/-- Settles O7: the runs of the frame have the form R59 asks for, their lengths give the seven bits, and the first six
are the code. -/
theorem frameReadsBack : Obligations.FrameReadsBack := by
  intro c code
  have hshape : (frame c code).length = c.frameLen ∧ (levelRuns c code).length = 10 ∧
      ((levelRuns c code).map (·.1)).head? = some .on ∧ ((levelRuns c code).map (·.2)).take 2 = [c.p0, c.p0] :=
    ⟨length_frame c code, rfl, rfl, rfl⟩
  simp only [decodeFrame, runsOf_frame]
  rw [if_pos hshape, lengths_conveying_frameBits, mapM_bitOfRun_runLength]
  exact (if_pos (foldl_xor_frameBits code)).trans (congrArg some (codeOfBits_frameBits code))

end Sys2Proof.Machine
end

section
/-! The parity run (R55, R57): what it makes even, and the entries ENCODE leaves there and right beside it. -/

namespace Sys2Proof.Machine

theorem foldl_xor_parity : ∀ code : Code,
    ((List.range 6).map (codeBit code)).foldl xor (decide (popcount code % 2 = 1)) = false := by decide

/-- The entry at a position of a run that stands after `before`. -/
theorem getD_run {before after : List Byte} {n i : Nat} {v : Byte} (hlo : before.length ≤ i)
    (hhi : i < before.length + n) : (before ++ List.replicate n v ++ after).getD i 0 = v := by
  have hin : i - before.length < n := by omega
  rw [List.append_assoc, List.getD_append_right _ _ _ _ hlo, List.getD_append _ _ _ _ (by simpa using hin),
    List.getD_replicate v hin]

section Frame
variable (c : Config) (code : Code)

/-- Entries before the parity run: the header and the six data runs. -/
def parityIndex : Nat := 2 * c.p0 + ((List.range 6).map (dataLength c code)).sum

theorem getD_frame_parity {i : Nat} (hlo : parityIndex c code ≤ i)
    (hhi : i < parityIndex c code + parityRun c code) : (frame c code).getD i 0 = c.onMark := by
  have hlen : (headerEntries c ++ dataEntries c code (List.range 6)).length = parityIndex c code := by
    rw [List.length_append, length_headerEntries, length_dataEntries, parityIndex]
  rw [frame_eq_phases]
  exact getD_run (by omega) (by omega)

/-- R57: data run 5, the last, is off. -/
theorem getD_frame_before_parity : (frame c code).getD (parityIndex c code - 1) 0 = 0 := by
  have hpos : 0 < dataLength c code 5 := runLength_pos c (codeBit code 5)
  have hdata : dataEntries c code (List.range 6)
      = dataEntries c code (List.range 5) ++ List.replicate (dataLength c code 5) 0 := by
    rw [List.range_succ]
    simp [dataEntries, dataByte, dataLevel, levelByte]
  have hlen : (headerEntries c ++ dataEntries c code (List.range 5)).length + dataLength c code 5
      = parityIndex c code := by
    rw [List.length_append, length_headerEntries, length_dataEntries, parityIndex]
    simp [List.range_succ]
    omega
  rw [frame_eq_phases, hdata, ← List.append_assoc (headerEntries c), List.append_assoc _ _ (List.replicate _ 0)]
  exact getD_run (by omega) (by omega)

/-- R56: the padding, which R6 keeps from being empty, is off. -/
theorem getD_frame_after_parity : (frame c code).getD (parityIndex c code + parityRun c code) 0 = 0 := by
  have hused : used c code = parityIndex c code + parityRun c code := rfl
  have hlt := used_lt_frameLen c code
  have hlen : (headerEntries c ++ dataEntries c code (List.range 6)
      ++ List.replicate (parityRun c code) c.onMark).length = used c code := by
    rw [List.length_append, List.length_append, length_headerEntries, length_dataEntries, List.length_replicate, used]
  rw [frame_eq_phases, ← List.append_nil (_ ++ List.replicate (_ - _) _)]
  exact getD_run (by omega) (by omega)

end Frame

/-- ENCODE on an Idle state completes, and the frame region then reads as the frame (R71, R78). -/
theorem exec_encode_idle {s : State} (ht : s.tstate = .idle) (id : TransponderId) :
    exec (.encode id) s = .next ((s.setCursor 0).stored (frame s.cfg (codeOf id.b5))) :=
  congrArg Answer.ofExcept (runEncode_idle ht id)

theorem read_encoded {s : State} (hwf : Memory.wf s.buf) (code : Code) {i : Nat} (hi : i < s.cfg.frameLen) :
    Memory.read ((s.setCursor 0).stored (frame s.cfg code)).buf i = (frame s.cfg code).getD i 0 :=
  (read_storeAll_frame hwf s.cfg code i).trans (if_pos hi)

/-- Settles O9: the parity of the code by its 64 values, and the entries ENCODE leaves by those of the frame. -/
theorem parityRunMakesOnesEven : Obligations.ParityRunMakesOnesEven := by
  refine ⟨fun code => ⟨foldl_parityStep code, foldl_xor_parity code⟩, fun s id hwf ht => ?_,
    fun s id t hwf ht hnext => ?_⟩
  · refine ⟨_, exec_encode_idle ht id, fun i hlo hhi => ?_⟩
    have hi : i < s.cfg.frameLen := Nat.lt_trans hhi (used_lt_frameLen s.cfg (codeOf id.b5))
    exact (read_encoded hwf _ hi).trans (getD_frame_parity s.cfg _ hlo hhi)
  · cases hnext.symm.trans (exec_encode_idle ht id)
    have hlt := used_lt_frameLen s.cfg (codeOf id.b5)
    have hbefore : parityIndex s.cfg (codeOf id.b5) - 1 < s.cfg.frameLen :=
      Nat.lt_of_le_of_lt (Nat.le_trans (Nat.sub_le _ _) (Nat.le_add_right _ _)) hlt
    exact ⟨(read_encoded hwf _ hbefore).trans (getD_frame_before_parity s.cfg _),
      (read_encoded hwf _ hlt).trans (getD_frame_after_parity s.cfg _)⟩

end Sys2Proof.Machine
end

section
/-! What each phase of ENCODE writes and leaves (R72 to R77): a run stored at the cursor, read back entry by entry. -/

namespace Sys2Proof.Machine

/-! ## A list of entries stored at the cursor -/

section Stored
variable {s : State} {vs : List Byte} {n i : Nat} {v : Byte}

theorem State.stored_sameButBuffer (s : State) (vs : List Byte) : s.sameButBuffer (s.stored vs) := rfl

theorem wf_stored (hwf : Memory.wf s.buf) (vs : List Byte) : Memory.wf (s.stored vs).buf :=
  wf_storeAll hwf s.cursor vs

theorem State.stored_run_cursor (s : State) (n : Nat) (v : Byte) :
    (s.stored (List.replicate n v)).cursor = s.cursor + n :=
  congrArg (s.cursor + ·) List.length_replicate

theorem read_stored_outside (hwf : Memory.wf s.buf) (h : i < s.cursor ∨ (s.stored vs).cursor ≤ i) :
    Memory.read (s.stored vs).buf i = Memory.read s.buf i := by
  rw [State.stored_cursor] at h
  exact (read_storeAll hwf s.cursor vs i).trans (if_neg (by omega))

theorem read_stored_run (hwf : Memory.wf s.buf) (hlo : s.cursor ≤ i)
    (hhi : i < (s.stored (List.replicate n v)).cursor) :
    Memory.read (s.stored (List.replicate n v)).buf i = v := by
  rw [State.stored_run_cursor] at hhi
  rw [State.stored_buf, read_storeAll hwf, List.length_replicate, if_pos ⟨hlo, hhi⟩,
    List.getD_replicate v (by omega)]

end Stored

/-! ## The phases -/

/-- Settles O11: `emit` stores `n` copies of `v`, and the frame ends inside the buffer. -/
theorem emitWritesOneRun : Obligations.EmitWritesOneRun := by
  intro s n v hwf ht hfit
  have hcursor := State.stored_run_cursor s n v
  exact ⟨_, emit_stored ht (hfit.trans (frameLen_le_cap s.cfg)) v, hcursor, s.stored_sameButBuffer _,
    fun i hlo hhi => read_stored_run hwf hlo (hcursor.symm ▸ hhi),
    fun i hi => read_stored_outside hwf (hcursor.symm ▸ hi)⟩

/-- The header is shorter than the shortest frame R6 admits. -/
theorem two_mul_p0_le_cap (c : Config) : 2 * c.p0 ≤ c.cap := by
  have hused := used_lt_frameLen c 0
  have hcap := frameLen_le_cap c
  unfold used at hused
  omega

/-- Settles O12: an entry of the on run lies before the off run, which therefore keeps it. -/
theorem headerPhase : Obligations.HeaderPhase := by
  intro s hwf ht h0
  let son := s.stored (List.replicate s.cfg.p0 s.cfg.onMark)
  let soff := son.stored (List.replicate s.cfg.p0 0)
  have hon : son.cursor = s.cfg.p0 := by rw [State.stored_run_cursor, h0, Nat.zero_add]
  have hoff : soff.cursor = 2 * s.cfg.p0 := by rw [State.stored_run_cursor, hon, Nat.two_mul]
  have hwfon : Memory.wf son.buf := wf_stored hwf _
  have hroom : s.cursor + 2 * s.cfg.p0 ≤ s.cfg.cap := by rw [h0, Nat.zero_add]; exact two_mul_p0_le_cap s.cfg
  have hrun : phaseHeader s = .ok soff := by
    rw [phaseHeader_stored ht hroom, headerEntries, State.stored_append]
  refine ⟨soff, hrun, hoff, rfl, fun i hi => ?_, fun i hlo hhi => ?_, fun i hi => ?_⟩
  · rw [read_stored_outside hwfon (.inl (hon.symm ▸ hi))]
    exact read_stored_run hwf (h0 ▸ Nat.zero_le i) (hon.symm ▸ hi)
  · exact read_stored_run hwfon (hon.symm ▸ hlo) (hoff.symm ▸ hhi)
  · rw [read_stored_outside hwfon (.inr (hoff.symm ▸ hi)),
      read_stored_outside hwf (.inr (show son.cursor ≤ i by omega))]

/-- R57 (D5): the on runs are those at an even transmit position. -/
theorem dataByte_eq_ite (c : Config) {k : Nat} (hk : k < 6) :
    dataByte c k = if k = 0 ∨ k = 2 ∨ k = 4 then c.onMark else 0 := by
  interval_cases k <;> rfl

theorem parityLength_eq_runLength (c : Config) (par : Bool) : parityLength c par = runLength c (!par) := by
  cases par <;> rfl

/-- Where the longer run fits the frame, every run fits the buffer. -/
theorem runLength_fits {s : State} (hfit : s.cursor + s.cfg.p1 ≤ s.cfg.frameLen) (b : Bool) :
    s.cursor + runLength s.cfg b ≤ s.cfg.cap := by
  obtain ⟨-, hp, -⟩ := s.cfg.valid
  have hcap := frameLen_le_cap s.cfg
  unfold runLength
  split <;> omega

/-- Settles O13: the run of transmit position `k` is one stored run. -/
theorem dataPhaseRun : Obligations.DataPhaseRun := by
  intro s x k hk hwf ht hfit
  exact ⟨_, phaseDataRun_stored ht x k (runLength_fits hfit (codeBit x.code k)), State.stored_run_cursor ..,
    s.stored_sameButBuffer _, fun i hlo hhi => (read_stored_run hwf hlo hhi).trans (dataByte_eq_ite s.cfg hk),
    fun i hi => read_stored_outside hwf hi⟩

/-- The data steps update the parity from the bits alone, whatever they store (R55, R75). -/
theorem phaseDataRun_transients {k : Nat} {x y : Transients × State} (h : phaseDataRun k x = .ok y) :
    y.1 = ⟨x.1.code, parityStep x.1.par (codeBit x.1.code k)⟩ := by
  simp only [phaseDataRun] at h
  cases hemit : emit (runLength x.2.cfg (codeBit x.1.code k)) (levelByte x.2.cfg (dataLevel k)) x.2 with
  | error f => rw [hemit] at h; cases h
  | ok t => rw [hemit] at h; cases h; rfl

theorem phaseData_transients {ks : List Nat} {x y : Transients × State} (h : phaseData ks x = .ok y) :
    y.1 = ⟨x.1.code, ks.foldl (fun par k => parityStep par (codeBit x.1.code k)) x.1.par⟩ := by
  induction ks generalizing x with
  | nil => cases h; rfl
  | cons k ks ih =>
    rw [phaseData] at h
    cases hrun : phaseDataRun k x with
    | error f => rw [hrun] at h; cases h
    | ok z =>
      rw [hrun] at h
      rw [ih h, phaseDataRun_transients hrun, List.foldl_cons]

/-- Settles O14: one stored run, of a length that the six data steps make a matter of the number of 1 bits. -/
theorem parityPhase : Obligations.ParityPhase := by
  refine ⟨fun s x hwf ht hfit => ?_, fun s t code y hdata => ?_⟩
  · have hroom : s.cursor + parityLength s.cfg x.par ≤ s.cfg.cap :=
      parityLength_eq_runLength s.cfg x.par ▸ runLength_fits hfit (!x.par)
    exact ⟨_, phaseParity_stored ht x hroom, State.stored_run_cursor .., s.stored_sameButBuffer _,
      fun i hlo hhi => read_stored_run hwf hlo hhi, fun i hi => read_stored_outside hwf hi⟩
  · exact (congrArg Transients.par (phaseData_transients hdata)).trans (foldl_parityStep code)

/-- Settles O15: one stored run of zeros up to FRAME_LEN, which `used` never reaches. -/
theorem padPhase : Obligations.PadPhase := by
  refine ⟨fun s hwf ht hfit => ?_, fun c code => Nat.sub_pos_of_lt (used_lt_frameLen c code)⟩
  have hcursor : (s.stored (List.replicate (s.cfg.frameLen - s.cursor) 0)).cursor = s.cfg.frameLen := by
    rw [State.stored_run_cursor, Nat.add_sub_cancel' hfit]
  exact ⟨_, phasePad_stored ht, hcursor, s.stored_sameButBuffer _,
    fun i hlo hhi => read_stored_run hwf hlo (hcursor.symm ▸ hhi),
    fun i hi => read_stored_outside hwf (hcursor.symm ▸ hi)⟩

/-! ## The whole of ENCODE -/

/-- Settles O16: the phases together store the frame from index 0, and its length is FRAME_LEN. -/
theorem encodeWritesTheFrame : Obligations.EncodeWritesTheFrame := by
  intro s id hwf ht
  have hcursor : ((s.setCursor 0).stored (frame s.cfg (codeOf id.b5))).cursor = s.cfg.frameLen := by
    rw [State.stored_cursor, State.setCursor_cursor, length_frame, Nat.zero_add]
  exact ⟨_, exec_encode_idle ht id, hcursor, frameRegion_stored_frame hwf _,
    fun i hi => read_stored_outside (s := s.setCursor 0) hwf (.inr (hcursor.symm ▸ hi)), rfl⟩

/-- Settles O17: the frame and the count of O16 are those of the configuration and the code, which the six bits fix. -/
theorem encodeDependsOnSixBitsOnly : Obligations.EncodeDependsOnSixBitsOnly := by
  intro s s' id id' hwf hwf' ht ht' hcfg hbits
  have hcode : codeOf id.b5 = codeOf id'.b5 := by rw [codeOf_eq_xor, codeOf_eq_xor, hbits]
  obtain ⟨t, hnext, hcursor, hframe, -⟩ := encodeWritesTheFrame s id hwf ht
  obtain ⟨t', hnext', hcursor', hframe', -⟩ := encodeWritesTheFrame s' id' hwf' ht'
  refine ⟨t, t', hnext, hnext', ?_, ?_⟩
  · rw [hframe, hframe', hcfg, hcode]
  · rw [hcursor, hcursor', hcfg]

end Sys2Proof.Machine
end

section
/-! What the requests of the Transmitter answer (R90 to R98): the laws of UPDATE, TRANSMIT, INIT and ISREADY, while Idle
and while Busy, and of the held request that is released. -/

namespace Sys2Proof.Machine

variable {s : State}

/-! ## The requests that can be held -/

/-- R96: while Busy both blocking requests wait. -/
theorem exec_request_instr_busy (r : Request) (hp : s.pending = none) (ht : s.tstate = .busy) :
    exec r.instr s = .next (s.hold r) := by
  cases r with
  | update id =>
    exact holdUntilIdle_busy (r := .update id) (body := fun s => Answer.ofExcept (runEncode id s)) hp ht
  | transmit => exact holdUntilIdle_busy (r := .transmit) (body := transmitBody) hp ht

/-- R92: once Idle UPDATE is ENCODE. -/
theorem exec_update_idle (hp : s.pending = none) (ht : s.tstate = .idle) (id : TransponderId) :
    exec (.update id) s = exec (.encode id) s :=
  holdUntilIdle_idle (r := .update id) (body := fun s => Answer.ofExcept (runEncode id s)) hp ht

theorem exec_transmit_noChannel (hp : s.pending = none) (ht : s.tstate = .idle) (hv : s.chanValid = false) :
    exec .transmit s = .refused .noChannel :=
  (holdUntilIdle_idle (r := .transmit) hp ht).trans (if_neg (by simp [hv]))

theorem exec_transmit_start (hp : s.pending = none) (ht : s.tstate = .idle) (hv : s.chanValid = true) :
    exec .transmit s = .next (((s.setCursor 0).setBusy).startPlayback s.cfg.frameLen s.chan) :=
  (holdUntilIdle_idle (r := .transmit) hp ht).trans (if_pos hv)

/-- With a channel either request goes on while Idle, and leaves nothing held. -/
theorem exec_request_instr_idle (r : Request) (hp : s.pending = none) (ht : s.tstate = .idle)
    (hv : s.chanValid = true) : ∃ t, exec r.instr s = .next t ∧ t.pending = none := by
  cases r with
  | update id => exact ⟨_, (exec_update_idle hp ht id).trans (exec_encode_idle ht id), hp⟩
  | transmit => exact ⟨_, exec_transmit_start hp ht hv, hp⟩

/-- R142: the hold `WaitIdle`. -/
theorem fetchHeld_busy {r : Request} (hp : s.pending = some r) (ht : s.tstate = .busy) :
    fetchHeld s = .error .waitIdle := by simp [fetchHeld, hp, ht]

theorem fetchHeld_idle {r : Request} (hp : s.pending = some r) (ht : s.tstate = .idle) :
    fetchHeld s = .ok (r.instr, s.releaseHold) := by simp [fetchHeld, hp, ht]

/-- Settles O19: UPDATE is ENCODE once Idle, which O16 describes, and waits while Busy as TRANSMIT does. -/
theorem updateStagesTheFrame : Obligations.UpdateStagesTheFrame := by
  intro s id hp
  refine ⟨fun hwf ht => ?_, exec_request_instr_busy (.update id) hp⟩
  obtain ⟨t, hnext, hcursor, -, htail, hsame⟩ := encodeWritesTheFrame s id hwf ht
  exact ⟨t, (exec_update_idle hp ht id).trans hnext, hnext, hcursor, hsame, htail⟩

/-- Settles O20: the hold, the refusal and the start, each by its law. -/
theorem transmitStartsThePlayback : Obligations.TransmitStartsThePlayback :=
  fun _ hp => ⟨exec_request_instr_busy .transmit hp, exec_transmit_noChannel hp, exec_transmit_start hp⟩

/-- Settles O21: the move `resume` is the held request's own step, which only Idle enables. -/
theorem requestsHoldUntilIdle : Obligations.HoldUntilIdle := by
  intro s r rest
  refine ⟨exec_request_instr_busy r, fun hp hscript ht => ?_, fun hp hscript ht => ?_⟩
  · have hfetch : fetch .resume s.popMove = .error .waitIdle := fetchHeld_busy (s := s.popMove) hp ht
    rw [step_cons hscript, takeMove, hfetch]
  · have hfetch : fetch .resume s.popMove = .ok (r.instr, s.popMove.releaseHold) :=
      fetchHeld_idle (s := s.popMove) hp ht
    rw [step_cons hscript, takeMove_of_fetch hfetch, State.popMove, hscript]
    rfl

/-! ## The requests that are never held -/

/-- Settles O22: ISREADY's word has `op` bits 0, and either context may present it. -/
theorem isReadyReadsTheFlag : Obligations.IsReadyReadsTheFlag := by
  intro s
  refine ⟨exec_isready, rfl, fun ctx w rest hscript hw => ?_⟩
  have hdecode : decode s.cfg (.request w) = .ok .isready := decodeRequest_isready (Nat.div_eq_of_lt hw)
  rw [step_of_fetch hscript (fetch_request_of_decode hdecode fun _ => rfl)]
  exact exec_isready

/-- Settles O24: INIT's two branches, by whether a channel has been supplied. -/
theorem initSuppliesTheChannelOnce : Obligations.InitSuppliesTheChannelOnce :=
  fun _ _ => ⟨fun hv => if_neg (by simp [hv]), fun hv => if_pos hv⟩

end Sys2Proof.Machine
end

section
/-! Which operations write the buffer, and which the channel (R92, R103, R90, R119). -/

namespace Sys2Proof.Machine

variable {s t : State} {i : Instr}

/-- Settles O44: the operations that are not exempt, each by its inversion. -/
theorem onlyEncodeAndResetChangeTheBuffer : Obligations.OnlyEncodeAndResetChangeTheBuffer := by
  intro i s t hnext
  cases i with
  | update id => exact .inr (.inr ⟨id, .inl rfl⟩)
  | encode id => exact .inr (.inr ⟨id, .inr rfl⟩)
  | reset => exact .inr (.inl rfl)
  | isready =>
    rw [exec_isready] at hnext
    cases hnext
    exact .inl rfl
  | transmit => obtain ⟨-, ⟨-, rfl⟩ | ⟨-, -, rfl⟩⟩ := exec_transmit_next hnext <;> exact .inl rfl
  | reservedOp3 => cases hnext
  | init ch =>
    obtain ⟨-, rfl⟩ := exec_init_next hnext
    exact .inl rfl
  | startPlayback n ch =>
    obtain ⟨-, -, -, rfl⟩ := exec_startPlayback_next hnext
    exact .inl rfl
  | playStep =>
    obtain ⟨-, -, -, rfl⟩ := exec_playStep_next hnext
    exact .inl rfl
  | complete => obtain ⟨-, -, rfl⟩ | ⟨-, -, rfl⟩ := exec_complete_next hnext <;> exact .inl rfl

/-- R90: the one operation but RESET that writes the channel, INIT, has no effect once there is one. -/
theorem Effect.chan_of_chanValid (h : Effect s i t) (hv : s.chanValid = true) :
    (t.chan = s.chan ∧ t.chanValid = true) ∨ i = .reset := by
  cases h with
  | supplied ch hnone => simp [hv] at hnone
  | wiped => exact .inr rfl
  | _ => exact .inl ⟨rfl, hv⟩

/-- Settles O46: fetching an operation leaves the channel, and of the effects only a RESET's changes it. -/
theorem channelIsFixedOnceSupplied : Obligations.ChannelIsFixedOnceSupplied := by
  intro s t hv hstep
  obtain ⟨-, rfl⟩ | ⟨m, i, u, hhead, hfetch, heff⟩ := step_effect hstep
  · exact .inl ⟨rfl, hv⟩
  · obtain ⟨huchan, huvalid⟩ : u.chan = s.chan ∧ u.chanValid = s.chanValid := by
      obtain rfl | rfl := fetch_acts_on hfetch <;> exact ⟨rfl, rfl⟩
    obtain ⟨hchan, hvalid⟩ | rfl := heff.chan_of_chanValid (huvalid.trans hv)
    · exact .inl ⟨hchan.trans huchan, hvalid⟩
    · exact .inr (fetch_reset hfetch ▸ hhead)

end Sys2Proof.Machine
end

section
/-! A playback to its end with no other move between (R113, R114, R117), and its completion (R137). -/

namespace Sys2Proof.Machine

variable {s : State}

/-- The state once the rest of the frame region has been played: its levels are in the history, the output is OFF. -/
def State.playedToEnd (s : State) : State :=
  { s with
    ppos := s.plen
    tx := .off
    trace := s.trace ++ (s.frameRegion.drop s.ppos).map fun e => (s.pchan, Level.ofByte e) }

theorem drop_frameRegion_end (h : s.ppos = s.cfg.frameLen) : s.frameRegion.drop s.ppos = [] :=
  List.drop_eq_nil_of_le (by rw [State.length_frameRegion, h])

theorem drop_frameRegion_succ (h : s.ppos < s.cfg.frameLen) :
    s.frameRegion.drop s.ppos = Memory.read s.buf s.ppos :: s.frameRegion.drop (s.ppos + 1) := by
  rw [List.drop_eq_getElem_cons (by rwa [State.length_frameRegion])]
  simp [State.frameRegion]

/-- A playback with no entry left is played to its end, the output being OFF. -/
theorem State.playedToEnd_of_end (hend : s.ppos = s.plen) (hlen : s.plen = s.cfg.frameLen) (htx : s.tx = .off) :
    s.playedToEnd = s := by
  have hpos : { s with ppos := s.plen } = s := congrArg (fun p => { s with ppos := p }) hend.symm
  rw [State.playedToEnd, drop_frameRegion_end (hend.trans hlen), List.map_nil, List.append_nil, ← htx, hpos]

/-- Playing one entry first makes no difference to where the playback ends. -/
theorem State.playedToEnd_playEntry (hpos : s.ppos < s.cfg.frameLen) :
    (s.playEntry (Level.ofByte (Memory.read s.buf s.ppos))).playedToEnd = s.playedToEnd := by
  rw [State.playedToEnd, State.playedToEnd, drop_frameRegion_succ hpos, List.map_cons, List.append_cons]
  rfl

/-- R117: `n` PLAY_STEPs play the `n` entries left of a frame region. -/
theorem playSteps_playedToEnd {n : Nat} (hp : s.pstate = .playing) (hlen : s.plen = s.cfg.frameLen)
    (hleft : s.ppos + n = s.plen) (hdark : s.ppos = s.plen → s.tx = .off) :
    playSteps n s = .next s.playedToEnd := by
  induction n generalizing s with
  | zero => rw [State.playedToEnd_of_end hleft hlen (hdark hleft)]; rfl
  | succ n ih =>
    have hpos : s.ppos < s.plen := by omega
    have hcap : s.plen ≤ s.cfg.cap := hlen ▸ frameLen_le_cap s.cfg
    rw [playSteps, exec_playStep_playing hp hpos hcap, ← State.playedToEnd_playEntry (hlen ▸ hpos)]
    exact ih hp hlen (by simp; omega) fun hlast => if_pos hlast

theorem exec_complete_due (hp : s.pstate = .playing) (hdue : s.ppos = s.plen) :
    exec .complete s = .next s.takeCompletion := if_pos ⟨hp, hdue⟩

/-- Settles O30: UPDATE stages the frame, TRANSMIT starts at entry 0 of it, and the playback ends after `FRAME_LEN`
steps, one at least. -/
theorem stagedFrameIsTransmitted : Obligations.StagedFrameIsTransmitted := by
  intro s id hwf ht hp hv
  let s₁ := (s.setCursor 0).stored (frame s.cfg (codeOf id.b5))
  let s₂ := ((s₁.setCursor 0).setBusy).startPlayback s.cfg.frameLen s.chan
  have hupdate : exec (.update id) s = .next s₁ := (exec_update_idle hp ht id).trans (exec_encode_idle ht id)
  have htransmit : exec .transmit s₁ = .next s₂ := exec_transmit_start (s := s₁) hp ht hv
  have hsome : (0 : Nat) ≠ s.cfg.frameLen := Nat.ne_of_lt (Nat.zero_lt_of_lt (used_lt_frameLen s.cfg 0))
  have hplay : playSteps s.cfg.frameLen s₂ = .next s₂.playedToEnd :=
    playSteps_playedToEnd rfl rfl (Nat.zero_add _) fun hnone => absurd hnone hsome
  have hframe : s₂.frameRegion = frame s.cfg (codeOf id.b5) := frameRegion_stored_frame hwf _
  have hready : s₁.ready = true := decide_eq_true ht
  refine ⟨s₁, s₂, s₂.playedToEnd, s₂.playedToEnd.takeCompletion, hupdate, htransmit, hplay,
    exec_complete_due rfl rfl, ?_, hframe, rfl, rfl, rfl, rfl, hready, rfl, rfl, rfl⟩
  show s.trace ++ s₂.frameRegion.map (fun e => (s.chan, Level.ofByte e)) = _
  rw [hframe]

/-- R116, within the invariants: the collaborator that makes good on its playback leaves every entry played, then
completed. -/
theorem State.Inv.finishPlayback_eq (h : s.Inv) (ht : s.tstate = .busy) :
    finishPlayback s = .next s.playedToEnd.takeCompletion := by
  have hp := h.playingIffBusy.mpr ht
  obtain ⟨hlen, -⟩ := h.playback hp
  obtain ⟨hpos, -⟩ := h.positionInRange
  have hplay : playSteps (s.plen - s.ppos) s = .next s.playedToEnd :=
    playSteps_playedToEnd hp hlen (by omega) fun hend => h.darkAtRest (.inr (.inr hend))
  rw [finishPlayback, hplay]
  exact exec_complete_due hp rfl

theorem State.Inv.chanValid_of_held {r : Request} (h : s.Inv) (hr : s.pending = some r) : s.chanValid = true :=
  h.heldHasChannel (by simp [hr])

/-- Settles O31: after the completion the block is Idle with the channel it had, so that the held request is released
and goes on. -/
theorem finishedPlaybackReleasesTheHold : Obligations.FinishedPlaybackReleasesTheHold := by
  intro s h ht
  refine ⟨s.playedToEnd.takeCompletion, h.finishPlayback_eq ht, rfl, rfl, rfl, rfl, rfl, rfl, rfl, rfl, rfl,
    fun r hr => ?_⟩
  obtain ⟨v, hnext, -⟩ := exec_request_instr_idle (s := s.playedToEnd.takeCompletion.releaseHold) r rfl rfl
    (h.chanValid_of_held hr)
  exact ⟨_, fetchHeld_idle hr rfl, rfl, v, hnext⟩

end Sys2Proof.Machine
end

section
/-! Progress under weak fairness (R96, R116): a playback in flight is brought to its completion, and a held request is
then run, unless a RESET comes first. -/

namespace Sys2Proof.Machine

variable {s t : State} {m : Move} {q : Request} {r : Run} {n : Nat}

theorem Run.inv (hinv : (r.state 0).Inv) (k : Nat) : (r.state k).Inv := by
  induction k with
  | zero => exact hinv
  | succ k ih => exact ih.takeMove (r.made k)

/-- The use of weak fairness: a condition under which the move can be made lasts until the move is made, unless it
ends before. -/
theorem Run.WeaklyFair.leadsTo (hfair : r.WeaklyFair m) {P : State → Prop} (henabled : ∀ s, P s → Enabled m s)
    (hn : P (r.state n)) : ∃ k, n ≤ k ∧ P (r.state k) ∧ (r.move k = m ∨ ¬ P (r.state (k + 1))) := by
  by_contra hnever
  have hlasts : ∀ k, n ≤ k → P (r.state k) := by
    intro k hk
    induction k, hk using Nat.le_induction with
    | base => exact hn
    | succ k hk ih => exact by_contra fun hend => hnever ⟨k, hk, ih, .inr hend⟩
  obtain ⟨k, hk, hmove⟩ := hfair n fun k hk => henabled _ (hlasts k hk)
  exact hnever ⟨k, hk, hlasts k hk, .inl hmove⟩

/-! ## The playback in flight -/

/-- A playback is in flight with `d` entries left to play. -/
structure State.EntriesLeft (s : State) (d : Nat) : Prop where
  inv : s.Inv
  playing : s.pstate = .playing
  left : s.ppos + d = s.plen

/-- The move the collaborator owes with `d` entries left: the completion is due after the last (R113, R115). -/
def owedMove (d : Nat) : Move := if d = 0 then .complete else .playStep

theorem State.EntriesLeft.enabled_owedMove {d : Nat} (h : s.EntriesLeft d) : Enabled (owedMove d) s := by
  obtain ⟨hinv, hp, hleft⟩ := h
  unfold owedMove
  split
  · have hdue : s.ppos = s.plen := by omega
    have hfetch : fetch .complete s = .ok (.complete, s) := if_pos ⟨hp, hdue⟩
    exact ⟨_, (takeMove_of_fetch hfetch).trans (exec_complete_due hp hdue)⟩
  · obtain ⟨-, hcap⟩ := hinv.positionInRange
    exact ⟨_, exec_playStep_playing hp (by omega) hcap⟩

theorem Run.PlaybackCompletes.weaklyFair_owedMove (hfair : r.PlaybackCompletes) (d : Nat) :
    r.WeaklyFair (owedMove d) := by
  obtain ⟨hstep, hcomplete⟩ := hfair
  unfold owedMove
  split
  · exact hcomplete
  · exact hstep

/-- What one effect leaves of a playback in flight: COMPLETE and RESET end it, PLAY_STEP plays one entry, and the
others leave the entries as they were. -/
theorem Effect.of_playing {i : Instr} (h : Effect s i t) (hinv : s.Inv) (hp : s.pstate = .playing) :
    (i = .complete ∧ s.ppos = s.plen) ∨ i = .reset ∨
      (t.pstate = .playing ∧ t.plen = s.plen ∧
        ((i = .playStep ∧ s.ppos < s.plen ∧ t.ppos = s.ppos + 1) ∨
          (i ≠ .playStep ∧ i ≠ .complete ∧ t.ppos = s.ppos))) := by
  have hbusy : s.tstate = .busy := hinv.playingIffBusy.mp hp
  cases h with
  | completed _ hdue => exact .inl ⟨rfl, hdue⟩
  | wiped => exact .inr (.inl rfl)
  | played _ hpos => exact .inr (.inr ⟨hp, rfl, .inl ⟨rfl, hpos, rfl⟩⟩)
  | answered => exact .inr (.inr ⟨hp, rfl, .inr ⟨nofun, nofun, rfl⟩⟩)
  | supplied => exact .inr (.inr ⟨hp, rfl, .inr ⟨nofun, nofun, rfl⟩⟩)
  | held q => exact .inr (.inr ⟨hp, rfl, .inr ⟨by cases q <;> nofun, by cases q <;> nofun, rfl⟩⟩)
  | encoded _ hidle => simp [hbusy] at hidle
  | started hidle => simp [hbusy] at hidle

theorem ne_owedMove (hstep : m ≠ .playStep) (hcomplete : m ≠ .complete) (d : Nat) : m ≠ owedMove d := by
  unfold owedMove
  split
  · exact hcomplete
  · exact hstep

/-- A move over a playback with `d` entries left ends it, plays an entry, or is not the one owed and leaves `d`. -/
theorem State.EntriesLeft.takeMove {d : Nat} (h : s.EntriesLeft d) (hnext : takeMove m s = .next t) :
    (m = .complete ∧ s.ppos = s.plen) ∨ m = .reset ∨ (∃ e, e < d ∧ t.EntriesLeft e) ∨
      (m ≠ owedMove d ∧ t.EntriesLeft d) := by
  obtain ⟨hinv, hp, hleft⟩ := h
  have hinv' := hinv.takeMove hnext
  obtain ⟨i, u, hfetch, heff⟩ := takeMove_effect hnext
  obtain ⟨rfl, -, -, -, hreset, hstep, hcomplete, -, -⟩ | ⟨r, -, -, hidle, -, -⟩ := fetch_ok hfetch
  · obtain ⟨hi, hdue⟩ | hi | ⟨hp', hlen, ⟨-, hlt, hpos⟩ | ⟨hi, hi', hpos⟩⟩ := heff.of_playing hinv hp
    · exact .inl ⟨hcomplete.mp hi, hdue⟩
    · exact .inr (.inl (hreset.mp hi))
    · exact .inr (.inr (.inl ⟨d - 1, by omega, hinv', hp', by omega⟩))
    · exact .inr (.inr (.inr ⟨ne_owedMove (mt hstep.mpr hi) (mt hcomplete.mpr hi') d, hinv', hp', by omega⟩))
  · simp [hinv.playingIffBusy.mp hp] at hidle

/-- R116: under `PlaybackCompletes` the entries left run out, and the completion that is then due is made, unless a
RESET comes first. -/
theorem Run.PlaybackCompletes.playback_ends (hfair : r.PlaybackCompletes) {d : Nat}
    (hn : (r.state n).EntriesLeft d) :
    ∃ k, n ≤ k ∧ ((r.move k = .complete ∧ (r.state k).ppos = (r.state k).plen) ∨ r.move k = .reset) := by
  induction d using Nat.strong_induction_on generalizing n with
  | _ d ih =>
    obtain ⟨k, hk, hkleft, hmove⟩ :=
      (hfair.weaklyFair_owedMove d).leadsTo (fun _ => State.EntriesLeft.enabled_owedMove) hn
    obtain hdone | hreset | ⟨e, he, hfewer⟩ | ⟨hother, hsame⟩ := hkleft.takeMove (r.made k)
    · exact ⟨k, hk, .inl hdone⟩
    · exact ⟨k, hk, .inr hreset⟩
    · obtain ⟨l, hl, hends⟩ := ih e he hfewer
      exact ⟨l, by omega, hends⟩
    · obtain howed | hend := hmove
      · exact absurd howed hother
      · exact absurd hsame hend

theorem takeMove_complete_next (h : takeMove .complete s = .next t) : t = s.takeCompletion := by
  obtain ⟨i, u, hfetch, hexec⟩ := takeMove_next h
  obtain ⟨rfl, -, -, -, -, -, hcomplete, hdue, -⟩ | ⟨r, hm, -⟩ := fetch_ok hfetch
  · obtain rfl := hcomplete.mpr rfl
    obtain ⟨-, -, rfl⟩ | ⟨hnot, -, -⟩ := exec_complete_next hexec
    · rfl
    · exact absurd (hdue rfl) hnot
  · cases hm

theorem takeMove_reset_next (h : takeMove .reset s = .next t) : t = s.afterReset := by
  cases h
  rfl

/-- Under `PlaybackCompletes` the block is Idle again and again. -/
theorem Run.PlaybackCompletes.exists_idle (hfair : r.PlaybackCompletes) (hinv : (r.state 0).Inv) (n : Nat) :
    ∃ k, n ≤ k ∧ (r.state k).tstate = .idle := by
  cases ht : (r.state n).tstate with
  | idle => exact ⟨n, Nat.le_refl n, ht⟩
  | busy =>
    have hinvn := r.inv hinv n
    obtain ⟨hpos, -⟩ := hinvn.positionInRange
    obtain ⟨k, hk, hends⟩ :=
      hfair.playback_ends ⟨hinvn, hinvn.playingIffBusy.mpr ht, Nat.add_sub_cancel' hpos⟩
    refine ⟨k + 1, by omega, ?_⟩
    have hmade := r.made k
    obtain ⟨hmove, -⟩ | hmove := hends <;> rw [hmove] at hmade
    · rw [takeMove_complete_next hmade]
      rfl
    · rw [takeMove_reset_next hmade]
      rfl

/-! ## The held request -/

/-- A move ends the hold of a request: it is the request's own step, made while Idle, or a RESET drops it. -/
def EndsHold (q : Request) (m : Move) (s t : State) : Prop :=
  t.pending = none ∧
    ((m = .resume ∧ s.tstate = .idle ∧ exec q.instr s.releaseHold = .next t) ∨ m = .reset)

/-- With a request held, the effect of an operation leaves it held and the block Idle if it was, or is a RESET's: a
second blocking request has none. -/
theorem Effect.of_held {i : Instr} (h : Effect s i t) (hi : ∀ q : Request, i ≠ q.instr) :
    i = .reset ∨ (t.pending = s.pending ∧ (s.tstate = .idle → t.tstate = .idle)) := by
  cases h with
  | held q => exact absurd rfl (hi q)
  | encoded id => exact absurd rfl (hi (.update id))
  | started => exact absurd rfl (hi .transmit)
  | wiped => exact .inl rfl
  | completed => exact .inr ⟨rfl, fun _ => rfl⟩
  | _ => exact .inr ⟨rfl, id⟩

/-- A held request stays held, and an Idle block Idle, until a move ends the hold (R96, R19). -/
theorem takeMove_held (hinv : s.Inv) (hq : s.pending = some q) (hnext : takeMove m s = .next t) :
    EndsHold q m s t ∨ (m ≠ .resume ∧ t.pending = some q ∧ (s.tstate = .idle → t.tstate = .idle)) := by
  obtain ⟨i, u, hfetch, heff⟩ := takeMove_effect hnext
  have hexec : exec i u = .next t := (takeMove_of_fetch hfetch).symm.trans hnext
  obtain ⟨rfl, hresume, -, -, hreset, -⟩ | ⟨p, rfl, hp, hidle, rfl, rfl⟩ := fetch_ok hfetch
  · have hi : ∀ p : Request, i ≠ p.instr := by
      rintro p rfl
      cases hexec.symm.trans (exec_request_instr_outstanding p (hq ▸ nofun))
    obtain rfl | ⟨hpending, hidle⟩ := heff.of_held hi
    · cases hexec
      exact .inl ⟨rfl, .inr (hreset.mp rfl)⟩
    · exact .inr ⟨hresume, hpending.trans hq, hidle⟩
  · cases hp.symm.trans hq
    obtain ⟨v, hv, hnone⟩ := exec_request_instr_idle (s := s.releaseHold) q rfl hidle
      (hinv.chanValid_of_held hq)
    cases hv.symm.trans hexec
    exact .inl ⟨hnone, .inl ⟨rfl, hidle, hexec⟩⟩

/-- A request is held from some moment on for ever, or a move ends its hold. -/
theorem Run.held_or_endsHold (hinv : (r.state 0).Inv) (hn : (r.state n).pending = some q) :
    (∀ k, n ≤ k → (r.state k).pending = some q) ∨
      ∃ k, n ≤ k ∧ (r.state k).pending = some q ∧ EndsHold q (r.move k) (r.state k) (r.state (k + 1)) := by
  by_cases hends : ∃ k, n ≤ k ∧ (r.state k).pending = some q ∧
      EndsHold q (r.move k) (r.state k) (r.state (k + 1))
  · exact .inr hends
  · refine .inl fun k hk => ?_
    induction k, hk using Nat.le_induction with
    | base => exact hn
    | succ k hk ih =>
      obtain hend | ⟨-, hstays, -⟩ := takeMove_held (r.inv hinv k) ih (r.made k)
      · exact absurd ⟨k, hk, ih, hend⟩ hends
      · exact hstays

/-- A request is held and its hold lifted. -/
structure State.Releasable (s : State) (q : Request) : Prop where
  inv : s.Inv
  idle : s.tstate = .idle
  held : s.pending = some q

theorem State.Releasable.enabled_resume (h : s.Releasable q) : Enabled .resume s := by
  obtain ⟨hinv, hidle, hq⟩ := h
  obtain ⟨v, hnext, -⟩ := exec_request_instr_idle (s := s.releaseHold) q rfl hidle
    (hinv.chanValid_of_held hq)
  have hfetch : fetch .resume s = .ok (q.instr, s.releaseHold) := fetchHeld_idle hq hidle
  exact ⟨v, (takeMove_of_fetch hfetch).trans hnext⟩

/-- Settles O50: a request that no move releases is still held when the block is next Idle, and `resume` is then owed
until it is made. -/
theorem everyHeldRequestRuns : Obligations.EveryHeldRequestRuns := by
  intro r hinv hplayback hproceeds n q hq
  obtain hheld | hends := r.held_or_endsHold hinv hq
  · obtain ⟨l, hl, hidle⟩ := hplayback.exists_idle hinv n
    have hl' : (r.state l).Releasable q := ⟨r.inv hinv l, hidle, hheld l hl⟩
    obtain ⟨k, hk, hkrel, hmove⟩ := hproceeds.leadsTo (fun _ => State.Releasable.enabled_resume) hl'
    obtain hend | ⟨hother, hstays, hidle'⟩ := takeMove_held hkrel.inv hkrel.held (r.made k)
    · exact ⟨k, hl.trans hk, hkrel.held, hend⟩
    · obtain hresume | hlost := hmove
      · exact absurd hresume hother
      · exact absurd ⟨r.inv hinv (k + 1), hidle' hkrel.idle, hstays⟩ hlost
  · exact hends

end Sys2Proof.Machine
end

section
/-! The output history of a state within the invariants (R115, R119, R166): its whole emissions name the codes that were
sent, and so a history that the state follows. -/

namespace Sys2Proof.Machine

variable {s : State}

/-- The codes that whole emissions are of, none for `FRAME_LEN` OFF slots. -/
theorem exists_sent_of_isEmission {c : Config} {fs : List (List Level)} (h : ∀ f ∈ fs, IsEmission c f) :
    ∃ sent : List (Option Code), fs = sent.map (emission c) := by
  have hone : ∀ f ∈ fs, f ∈ Set.range (emission c) := by
    intro f hf
    obtain rfl | ⟨code, rfl⟩ := h f hf
    · exact ⟨none, by simp [emission, stagedFrame, Level.ofByte]⟩
    · exact ⟨some code, rfl⟩
  obtain ⟨sent, hsent⟩ := (Set.range_list_map (emission c)).ge hone
  exact ⟨sent, hsent.symm⟩

/-- The frame region of a state within the invariants is what some history leaves staged. -/
theorem State.Inv.exists_staged (h : s.Inv) : ∃ staged, s.frameRegion = stagedFrame s.cfg staged := by
  obtain hzero | ⟨code, hcode⟩ := h.frameShape
  · exact ⟨none, hzero⟩
  · exact ⟨some code, hcode⟩

/-- R166: the shape of the output history comes from a history of the run: the codes of its whole emissions, and what is
staged for the playback in flight. -/
theorem State.TraceOfFrames.exists_follows (h : s.TraceOfFrames) (hinv : s.Inv) : ∃ hist, s.Follows hist := by
  obtain ⟨staged, hstaged⟩ := hinv.exists_staged
  obtain ⟨fs, hcount, hwhole, htrace⟩ := h.emissions
  obtain ⟨sent, rfl⟩ := exists_sent_of_isEmission hwhole
  rw [List.length_map] at hcount
  refine ⟨⟨staged, sent ++ if s.pstate = .playing then [staged] else []⟩, hstaged, ?_, ?_, fun hp => ?_⟩
  · rw [h.exactlyOnce, ← hcount, List.length_append]
    split <;> rfl
  · rw [htrace, ← hcount, List.take_left, List.flatMap_def]
  · simp [hp]

/-- Settles O41: the state follows a history, and a step from such a state keeps the shape. -/
theorem stepKeepsTheTraceOfFrames : Obligations.StepKeepsTheTraceOfFrames := by
  intro s t hinv htrace hstep
  obtain ⟨hist, hfollows⟩ := htrace.exists_follows hinv
  exact step_traceOfFrames hinv htrace hfollows hstep

end Sys2Proof.Machine
end

section
/-! The collaborator's operations (R111 to R117, R137, R139): each with its effect where it is due and its refusal where
it is not. -/

namespace Sys2Proof.Machine

variable {s : State}

/-- Settles O29: the whole playback is the rest of one at entry 0, where FRAME_LEN entries are left. -/
theorem playbackEmitsTheBuffer : Obligations.PlaybackEmitsTheBuffer := by
  intro s hp hlen hpos
  have hsome : 0 < s.cfg.frameLen := Nat.zero_lt_of_lt (used_lt_frameLen s.cfg 0)
  have hplay : playSteps s.cfg.frameLen s = .next s.playedToEnd :=
    playSteps_playedToEnd hp hlen (by omega) fun hend => by omega
  rw [hplay, State.playedToEnd, hpos, List.drop_zero, hlen]

/-- Settles O26: the two branches of the call, by R111's preconditions. -/
theorem startPlaybackWithinPreconditions : Obligations.StartPlaybackWithinPreconditions := by
  intro s n ch
  refine ⟨fun hn hp ht => if_pos ⟨hn, hp, ht⟩, fun hout => if_neg fun ⟨hn, hp, ht⟩ => ?_⟩
  obtain hcap | hplaying | hidle := hout
  · omega
  · simp [hp] at hplaying
  · simp [ht] at hidle

theorem not_due_iff : (s.pstate = .stopped ∨ s.ppos ≠ s.plen) ↔ ¬(s.pstate = .playing ∧ s.ppos = s.plen) := by
  cases s.pstate <;> simp

theorem exec_complete_unowed (h : ¬(s.pstate = .playing ∧ s.ppos = s.plen)) (ht : s.tstate = .idle) :
    exec .complete s = .next s := (if_neg h).trans (if_pos ht)

theorem exec_complete_early (h : ¬(s.pstate = .playing ∧ s.ppos = s.plen)) (ht : s.tstate = .busy) :
    exec .complete s = .refused .completeNotEnabled := (if_neg h).trans (if_neg (by simp [ht]))

/-- Settles O28: COMPLETE's three laws, the values it leaves free being drawn within R18. -/
theorem completeReturnsToIdle : Obligations.CompleteReturnsToIdle := by
  intro s
  refine ⟨fun hp hdue => ?_, fun ht hnot => exec_complete_unowed (not_due_iff.mp hnot) ht,
    fun ht hnot => exec_complete_early (not_due_iff.mp hnot) ht⟩
  exact ⟨s.takeCompletion, exec_complete_due hp hdue, rfl, forgetPlayback_positionInRange s⟩

/-! ## The collaborator's moves -/

theorem takeMove_complete_due (hp : s.pstate = .playing) (hdue : s.ppos = s.plen) :
    takeMove .complete s = .next s.takeCompletion := by
  have hfetch : fetch .complete s = .ok (.complete, s) := if_pos ⟨hp, hdue⟩
  exact (takeMove_of_fetch hfetch).trans (exec_complete_due hp hdue)

theorem takeMove_complete_not_due (h : ¬(s.pstate = .playing ∧ s.ppos = s.plen)) :
    takeMove .complete s = .refused .completeNotEnabled := by
  have hfetch : fetch .complete s = .error .completeNotEnabled := if_neg h
  rw [takeMove, hfetch]

/-- R115 (1): the collaborator signals when every entry has been played. -/
theorem enabled_complete_iff : Enabled .complete s ↔ s.pstate = .playing ∧ s.ppos = s.plen := by
  refine ⟨fun ⟨t, hnext⟩ => by_contra fun hnot => ?_, fun ⟨hp, hdue⟩ => ⟨_, takeMove_complete_due hp hdue⟩⟩
  cases (takeMove_complete_not_due hnot).symm.trans hnext

theorem Enabled.entry_left (h : Enabled .playStep s) : s.pstate = .playing ∧ s.ppos < s.plen := by
  obtain ⟨t, hnext⟩ := h
  obtain ⟨hp, hpos, -⟩ := exec_playStep_next hnext
  exact ⟨hp, hpos⟩

/-- R113: within the buffer it plays while an entry is left. -/
theorem enabled_playStep_iff (hcap : s.plen ≤ s.cfg.cap) :
    Enabled .playStep s ↔ s.pstate = .playing ∧ s.ppos < s.plen :=
  ⟨Enabled.entry_left, fun ⟨hp, hpos⟩ => ⟨_, exec_playStep_playing hp hpos hcap⟩⟩

/-- Settles O48: both moves need a playback in flight, and a completion leaves none. -/
theorem collaboratorMovesOnlyWhenDue : Obligations.CollaboratorMovesOnlyWhenDue := by
  intro s
  refine ⟨enabled_complete_iff, fun t hnext => ?_, enabled_playStep_iff, takeMove_complete_not_due⟩
  obtain rfl := takeMove_complete_next hnext
  refine ⟨rfl, fun hcomplete => ?_, fun hplayStep => ?_⟩
  · obtain ⟨hp, -⟩ := enabled_complete_iff.mp hcomplete
    cases hp
  · obtain ⟨hp, -⟩ := hplayStep.entry_left
    cases hp

end Sys2Proof.Machine
end

section
/-! Where a run leads under weak fairness (R116, R164, R166): every playback completes, and without further blocking
requests nothing is held in the end. -/

namespace Sys2Proof.Machine

variable {s t : State} {m : Move} {r : Run} {n : Nat}

/-- A completion and a RESET leave the block Idle and the collaborator Stopped. -/
theorem takeMove_complete_or_reset (hm : m = .complete ∨ m = .reset) (hnext : takeMove m s = .next t) :
    t.tstate = .idle ∧ t.pstate = .stopped := by
  obtain rfl | rfl := hm
  · rw [takeMove_complete_next hnext]
    exact ⟨rfl, rfl⟩
  · rw [takeMove_reset_next hnext]
    exact ⟨rfl, rfl⟩

/-- Settles O49: the entries left run out, and the move that ends the playback makes the block ready. -/
theorem everyPlaybackCompletes : Obligations.EveryPlaybackCompletes := by
  intro r hinv hfair n hp
  have hinvn := r.inv hinv n
  obtain ⟨hpos, -⟩ := hinvn.positionInRange
  obtain ⟨k, hk, hends⟩ := hfair.playback_ends ⟨hinvn, hp, Nat.add_sub_cancel' hpos⟩
  obtain ⟨hidle, hstopped⟩ := takeMove_complete_or_reset (hends.imp_left And.left) (r.made k)
  exact ⟨k, hk, decide_eq_true hidle, hstopped, hends⟩

/-! ## No further blocking request -/

/-- A move that fetches an operation that can be held presents it as a request, or releases the one held (R61). -/
theorem fetch_mayBlock {i : Instr} {u : State} (h : fetch m s = .ok (i, u)) (hblock : mayBlock i = true) :
    Blocks s.cfg m ∨ (m = .resume ∧ s.pending ≠ none) := by
  cases m with
  | request ctx w =>
    obtain ⟨hdecode, -⟩ := fetchRequest_ok h
    exact .inl ⟨ctx, w, i, rfl, hdecode, hblock⟩
  | config ch =>
    obtain ⟨hdecode, -⟩ := fetchSignal_ok h
    rw [decode] at hdecode
    split at hdecode <;> cases hdecode
    cases hblock
  | reset => cases h; cases hblock
  | playStep => cases h; cases hblock
  | complete =>
    obtain ⟨-, -, -, -, -, -, hcomplete, -⟩ | ⟨q, hm, -⟩ := fetch_ok h
    · obtain rfl := hcomplete.mpr rfl
      cases hblock
    · cases hm
  | resume =>
    obtain ⟨-, hresume, -⟩ | ⟨q, -, hq, -⟩ := fetch_ok h
    · exact absurd rfl hresume
    · exact .inr ⟨rfl, hq ▸ nofun⟩

/-- Only a request that can be held writes the hold, and RESET clears it (R19). -/
theorem Effect.pending_eq_none {i : Instr} (h : Effect s i t) (hblock : mayBlock i ≠ true)
    (hp : s.pending = none) : t.pending = none := by
  cases h with
  | held q => exact absurd (mayBlock_request_instr q) hblock
  | wiped => rfl
  | _ => exact hp

theorem takeMove_pending_eq_none (hm : ¬ Blocks s.cfg m) (hp : s.pending = none)
    (hnext : takeMove m s = .next t) : t.pending = none := by
  obtain ⟨i, u, hfetch, heff⟩ := takeMove_effect hnext
  refine heff.pending_eq_none (fun hblock => ?_) ?_
  · obtain hm' | ⟨-, hheld⟩ := fetch_mayBlock hfetch hblock
    · exact hm hm'
    · exact hheld hp
  · obtain rfl | rfl := fetch_acts_on hfetch
    · exact hp
    · rfl

theorem Run.pending_eq_none (hquiet : ∀ k, n ≤ k → ¬ Blocks (r.state k).cfg (r.move k))
    (hp : (r.state n).pending = none) {k : Nat} (hk : n ≤ k) : (r.state k).pending = none := by
  induction k, hk using Nat.le_induction with
  | base => exact hp
  | succ k hk ih => exact takeMove_pending_eq_none (hquiet k hk) ih (r.made k)

/-- Under the named assumptions the request that is held, if any, is run or dropped (O50). -/
theorem Run.exists_pending_eq_none (hinv : (r.state 0).Inv) (hplayback : r.PlaybackCompletes)
    (hproceeds : r.HeldProceeds) (n : Nat) : ∃ k, n ≤ k ∧ (r.state k).pending = none := by
  cases hq : (r.state n).pending with
  | none => exact ⟨n, Nat.le_refl n, hq⟩
  | some q =>
    obtain ⟨k, hk, -, hnone, -⟩ := everyHeldRequestRuns r hinv hplayback hproceeds n q hq
    exact ⟨k + 1, Nat.le_succ_of_le hk, hnone⟩

/-- Settles O51: once nothing is held nothing is again, and the block is then Idle at some moment. -/
theorem runReachesAFinalState : Obligations.RunReachesAFinalState := by
  intro r hinv hplayback hproceeds n hquiet
  obtain ⟨l, hl, hnone⟩ := Run.exists_pending_eq_none hinv hplayback hproceeds n
  obtain ⟨k, hk, hidle⟩ := hplayback.exists_idle hinv l
  exact ⟨k, hl.trans hk, Run.pending_eq_none (fun j hj => hquiet j (hl.trans hj)) hnone hk,
    (r.inv hinv k).stopped hidle, hidle⟩

end Sys2Proof.Machine
end

section
/-! The run of a whole script and its end (R142, R164): every step makes one move of the schedule, and none faults. -/

namespace Sys2Proof.Machine

variable {s t : State} {n : Nat} {f : Fault}

/-- The schedule is the environment's (R41): no operation writes it. -/
theorem Effect.script_eq {i : Instr} (h : Effect s i t) : t.script = s.script := by cases h <;> rfl

theorem step_script (h : step s = .next t) : t.script = s.script.tail := by
  obtain ⟨hnil, rfl⟩ | ⟨m, i, u, -, hfetch, heff⟩ := step_effect h
  · rw [hnil, List.tail_nil]
  · rw [heff.script_eq]
    obtain rfl | rfl := fetch_acts_on hfetch <;> rfl

theorem runFor_succ_next (h : runFor (n + 1) s = .next t) :
    ∃ u, step s = .next u ∧ runFor n u = .next t := by
  rw [runFor] at h
  split at h
  · exact ⟨_, by assumption, h⟩
  · cases h
  · cases h

theorem runFor_script (h : runFor n s = .next t) : t.script = s.script.drop n := by
  induction n generalizing s with
  | zero =>
    cases h
    rfl
  | succ n ih =>
    obtain ⟨u, hstep, hrun⟩ := runFor_succ_next h
    rw [ih hrun, step_script hstep, List.drop_tail]

theorem runScript_script (h : runScript s = .next t) : t.script = [] := by
  rw [runFor_script h, List.drop_length]

/-- The invariants hold before each step of the run, and a step that starts within them does not fault (O40, O42). -/
theorem runFor_ne_fault (hinv : s.Inv) : runFor n s ≠ .fault f := by
  induction n generalizing s with
  | zero => nofun
  | succ n ih =>
    rw [runFor]
    split
    · next u hstep => exact ih (stepKeepsTheInvariants _ _ hinv hstep)
    · next g hstep => exact absurd hstep (stepNeverFaults s g hinv)
    · nofun

/-- Settles O54: the schedule is used up where nothing stops the run, so the other three clauses decide `Final`. -/
theorem endOfARun : Obligations.EndOfARun := by
  intro c script
  refine ⟨fun f => runFor_ne_fault { State.resetWith_inv c with }, fun t hrun => ?_, fun r hrun => ?_⟩
  · have hscript := runScript_script hrun
    rw [hrun]
    exact ⟨hscript, and_iff_right hscript⟩
  · rw [hrun]
    exact not_false

end Sys2Proof.Machine
end

section
/-! What a state within the invariants owes once its playback is over (R114, R115, R164, R166): nothing. -/

namespace Sys2Proof.Machine

variable {s : State}

/-- R115 (1): with no playback in flight, each start has its completion. -/
theorem State.TraceOfFrames.starts_eq_completions (h : s.TraceOfFrames) (hp : s.pstate = .stopped) :
    starts s.events = completions s.events := by
  simp [h.exactlyOnce, hp]

/-- R166: with no playback in flight, the output history is the whole emissions alone. -/
theorem State.TraceOfFrames.whole_emissions (h : s.TraceOfFrames) (hp : s.pstate = .stopped) :
    ∃ fs : List (List Level), fs.length = completions s.events ∧ (∀ f ∈ fs, IsEmission s.cfg f) ∧
      s.trace = fs.flatten.map fun l => (s.chan, l) := by
  obtain ⟨fs, hcount, hwhole, htrace⟩ := h.emissions
  rw [State.inFlight_stopped hp, List.append_nil] at htrace
  exact ⟨fs, hcount, hwhole, htrace⟩

/-- Settles O47: the step keeps both invariants (O40, O41), and a final state is stopped and Idle. -/
theorem finalStateOwesNothing : Obligations.FinalStateOwesNothing := by
  intro s t hinv htrace hstep hfinal
  obtain ⟨-, -, hstopped, hidle⟩ := hfinal
  have hinv' : t.Inv := stepKeepsTheInvariants s t hinv hstep
  have htrace' : t.TraceOfFrames := stepKeepsTheTraceOfFrames s t hinv htrace hstep
  exact ⟨decide_eq_true hidle, hinv'.darkAtRest (.inl hstopped), htrace'.starts_eq_completions hstopped,
    htrace'.whole_emissions hstopped⟩

end Sys2Proof.Machine
end
